-- ==== Sys2Proof/Word.lean ====
section
/-! DEFINITION. The word types of the CPE: bytes, byte sequences, 16-bit fields and colors (00_scope.md R10). -/

namespace Sys2Proof

/-- An 8-bit value, the wire unit (20_memory.md R55). -/
abbrev Byte := BitVec 8

/-- A finite sequence of bytes (00_scope.md R10). -/
abbrev Bytes := List Byte

/-- A 16-bit geometry field (30_encoding.md R77). -/
abbrev Geom := BitVec 16

/-- A 16-bit packed color (30_encoding.md R78). -/
abbrev Color := BitVec 16

/-- A 6-bit opcode or command kind (30_encoding.md R74, R85). -/
abbrev Opcode := BitVec 6

/-- A quantizer channel input, held in 32 bits, the widest CH_W (00_scope.md R6; log entry 11). -/
abbrev ChannelValue := BitVec 32

end Sys2Proof
end

