-- ==== Sys2Proof/Syntax.lean ====
section
/-! DEFINITION. The syntax: command records, instructions (one constructor per row of spec/opcode_table.json),
and the event words that the decoder reads. -/

namespace Sys2Proof

/-- A command record's fields beside its kind (30_encoding.md R85). -/
structure CmdBody where
  a0    : Geom
  a1    : Geom
  a2    : Geom
  a3    : Geom
  color : Color
  blend : Byte
  pix   : List Color
deriving DecidableEq, Repr, Inhabited

/-- A command record, as one CMD transaction carries it (30_encoding.md R85). -/
structure CmdRecord where
  kind : Opcode
  body : CmdBody
deriving DecidableEq, Repr, Inhabited

/-- The named blend operations (30_encoding.md R76). -/
inductive Blend where
  | copy
  | xor
  | or
  | and
deriving DecidableEq, Repr

/-- The events of the CPE, one constructor per row of spec/opcode_table.json. -/
inductive Instr where
  /-- FILL: a CMD transaction with kind 1 (41_encoder.md R121). -/
  | fill (b : CmdBody)
  /-- IMAGE: a CMD transaction with kind 2 (41_encoder.md R123). -/
  | image (b : CmdBody)
  /-- RECT: a CMD transaction with kind 3 (41_encoder.md R122). -/
  | rect (b : CmdBody)
  /-- ILLEGAL_KIND: a CMD transaction with a reserved kind (41_encoder.md R130). -/
  | illegalKind (kind : Opcode) (b : CmdBody)
  /-- FILL.FIRST: a packet with control byte 0xC1 is issued (30_encoding.md R71). -/
  | fillFirst
  /-- IMAGE.FIRST: a packet with control byte 0xC2 is issued (30_encoding.md R71). -/
  | imageFirst
  /-- RECT.FIRST: a packet with control byte 0xC3 is issued (30_encoding.md R71). -/
  | rectFirst
  /-- FILL.CONT: a packet with control byte 0x01 is issued (30_encoding.md R72). -/
  | fillCont
  /-- IMAGE.CONT: a packet with control byte 0x02 is issued (30_encoding.md R72). -/
  | imageCont
  /-- RECT.CONT: a packet with control byte 0x03 is issued (30_encoding.md R72). -/
  | rectCont
  /-- PACK565: a quantizer evaluation with QMODE = 0 (40_quantizer.md R102). -/
  | pack565 (r g b : ChannelValue)
  /-- PACK555: a quantizer evaluation with QMODE = 1 (40_quantizer.md R103). -/
  | pack555 (r g b : ChannelValue)
  /-- ACCEPT: the CPE takes the offer that waits on CMD (42_framer.md R150). -/
  | accept
  /-- ISSUE_FIRST: the CPE issues the first packet (42_framer.md R152). -/
  | issueFirst
  /-- ISSUE_CONT: the CPE issues a continuation packet (42_framer.md R153). -/
  | issueCont
  /-- WRITE_OK: the transport answers OK (42_framer.md R154). -/
  | writeOk
  /-- WRITE_ERR: the transport answers ERR (42_framer.md R155). -/
  | writeErr
  /-- RESET: the host resets the CPE (70_reset_and_hazards.md R230). -/
  | reset
deriving DecidableEq, Repr

/-- `Fill(color)` in the call form of 30_encoding.md R88: the fields FILL ignores are zero. -/
def fillCall (color : Color) : Instr :=
  .fill { a0 := 0, a1 := 0, a2 := 0, a3 := 0, color := color, blend := 0, pix := [] }

/-- `Rect(left, top, width, height, color, blendOp)` in the call form of 30_encoding.md R88. -/
def rectCall (left top width height : Geom) (color : Color) (blendOp : Byte) : Instr :=
  .rect { a0 := left, a1 := top, a2 := width, a3 := height, color := color, blend := blendOp, pix := [] }

/-- `Image(x, y, width, height, blendOp, pixels)` in the call form of 30_encoding.md R88. -/
def imageCall (x y width height : Geom) (blendOp : Byte) (pixels : List Color) : Instr :=
  .image { a0 := x, a1 := y, a2 := width, a3 := height, color := 0, blend := blendOp, pix := pixels }

/-- The form of an event word: the formats of spec/opcode_table.json, its two control-byte formats taken as one
(30_encoding.md R73 tells them apart by bit 7). -/
inductive EventFormat where
  | cmdRecord
  | ctrl
  | qz
  | step
deriving DecidableEq, Repr

/-- One entry of the schedule: which channel it stands on, and its bits as bytes (log entry 4). -/
structure EventWord where
  format : EventFormat
  bytes  : Bytes
deriving DecidableEq, Repr

/-- Why the decoder rejects an event word. Every rejection is safe: the machine refuses the word and does nothing. -/
inductive DecodeError where
  /-- a command record has too few bytes, or half a pixel -/
  | recordLength
  /-- a record's kind byte has a bit above the 6-bit kind field -/
  | recordPadding
  /-- a control byte event is not one byte long -/
  | ctrlLength
  /-- a control byte the CPE never emits (30_encoding.md R75) -/
  | ctrlNeverEmitted
  /-- a quantizer word has another length than QMODE and three CH_W-bit inputs take -/
  | qzLength
  /-- a quantizer word has a bit above its last input -/
  | qzPadding
  /-- a step event is not one byte long -/
  | stepLength
  /-- a step code that stands for no STEP row -/
  | stepUnknown
deriving DecidableEq, Repr

end Sys2Proof
end

