-- ==== Sys2Proof/Config.lean ====
section
/-! DEFINITION. What an instance fixes (00_scope.md R5 to R8), and the free value (log entry 7). -/

namespace Sys2Proof

/-- The instance parameters: PKT_MAX (00_scope.md R5) and CH_W (R6). CONT_CTRL (R7) and RECT_LAYOUT (R8) are fixed
by the spec to OPCODE and SPLIT_8_3 and take no argument. -/
structure Params where
  pktMax : Nat
  chW    : Nat
deriving DecidableEq, Repr

/-- The parameters are in their legal ranges (00_scope.md R5, R6). -/
abbrev Params.Legal (p : Params) : Prop :=
  (9 ≤ p.pktMax ∧ p.pktMax ≤ 63) ∧ (1 ≤ p.chW ∧ p.chW ≤ 32)

/-- The default parameters: PKT_MAX = 63, CH_W = 8 (00_scope.md R5, R6). -/
def Params.default : Params := { pktMax := 63, chW := 8 }

/-- Building an instance: a model refuses one whose parameters are out of range (00_scope.md R5,
70_reset_and_hazards.md R236). -/
def Params.build (pktMax chW : Nat) : Option Params :=
  if Params.Legal { pktMax := pktMax, chW := chW } then some { pktMax := pktMax, chW := chW } else none

/-- CMDL's value after a RESET: unspecified, any value (10_state.md R36, 70_reset_and_hazards.md R230). A free value,
one for each use (log entry 7). -/
opaque Config.freeCmdl : Nat → CmdRecord

end Sys2Proof
end

