-- ==== Sys2Proof/WellFormed.lean ====
section
/-! DEFINITION. Which instructions are well formed for an instance. -/

namespace Sys2Proof

/-- A reserved command kind: 0 or 4 to 63 (30_encoding.md R75, R85). -/
def Opcode.reserved (k : Opcode) : Bool :=
  k = 0 || 4 ≤ k.toNat

/-- A quantizer input that CH_W wires can carry (30_encoding.md R86). -/
def Params.carries (p : Params) (v : ChannelValue) : Bool :=
  v.toNat < 2 ^ p.chW

/-- Well-formedness: an ILLEGAL_KIND record has a reserved kind, a quantizer input fits CH_W bits, and every other
event is well formed whatever its operands. A pixel sequence of another length than w*h is no syntax error: it is the
PIX_LEN fault of 41_encoder.md R125. -/
def Instr.wf (p : Params) : Instr → Bool
  | .fill _ => true
  | .image _ => true
  | .rect _ => true
  | .illegalKind k _ => k.reserved
  | .fillFirst => true
  | .imageFirst => true
  | .rectFirst => true
  | .fillCont => true
  | .imageCont => true
  | .rectCont => true
  | .pack565 r g b => p.carries r && p.carries g && p.carries b
  | .pack555 r g b => p.carries r && p.carries g && p.carries b
  | .accept => true
  | .issueFirst => true
  | .issueCont => true
  | .writeOk => true
  | .writeErr => true
  | .reset => true

end Sys2Proof
end

