-- ==== Sys2Proof/Decode.lean ====
section
/-! DEFINITION. The decoder, total on event words of any bytes, and the encoder. The kind codes are those of
30_encoding.md R85, the control bytes those of R71 and R72, QMODE that of R87. The byte form of a whole record, of a
quantizer word and of a step event is the model's (log entry 4). -/

namespace Sys2Proof

/-- The low byte of a 16-bit field. -/
def loByte (v : BitVec 16) : Byte := v.extractLsb' 0 8

/-- The high byte of a 16-bit field. -/
def hiByte (v : BitVec 16) : Byte := v.extractLsb' 8 8

/-- A 16-bit field from its low and its high byte. -/
def joinBytes (lo hi : Byte) : BitVec 16 := hi ++ lo

/-- A pixel sequence as bytes, two a pixel, low byte first. -/
def pixelBytes : List Color → Bytes
  | [] => []
  | c :: cs => loByte c :: hiByte c :: pixelBytes cs

/-- The pixel sequence that bytes hold; none where half a pixel is left over. -/
def pixelsOf : Bytes → Option (List Color)
  | [] => some []
  | [_] => none
  | lo :: hi :: rest => (pixelsOf rest).map (joinBytes lo hi :: ·)

/-- `n` bytes of a number, the least significant first. -/
def natBytes : Nat → Nat → Bytes
  | 0, _ => []
  | n + 1, v => BitVec.ofNat 8 v :: natBytes n (v / 256)

/-- The number that bytes hold, the least significant first. -/
def bytesNat : Bytes → Nat
  | [] => 0
  | b :: bs => b.toNat + 256 * bytesNat bs

/-- The byte form of a command record: kind, a0, a1, a2, a3, color, blend, then the pixels. -/
def recordBytes (c : CmdRecord) : Bytes :=
  BitVec.setWidth 8 c.kind ::
    loByte c.body.a0 :: hiByte c.body.a0 :: loByte c.body.a1 :: hiByte c.body.a1 ::
    loByte c.body.a2 :: hiByte c.body.a2 :: loByte c.body.a3 :: hiByte c.body.a3 ::
    loByte c.body.color :: hiByte c.body.color :: c.body.blend :: pixelBytes c.body.pix

/-- The record that bytes hold. -/
def decodeRecord : Bytes → Except DecodeError CmdRecord
  | k :: a0l :: a0h :: a1l :: a1h :: a2l :: a2h :: a3l :: a3h :: cl :: ch :: bl :: rest =>
    if k.toNat < 64 then
      match pixelsOf rest with
      | some ps =>
        .ok { kind := BitVec.setWidth 6 k
              body := { a0 := joinBytes a0l a0h, a1 := joinBytes a1l a1h, a2 := joinBytes a2l a2h
                        a3 := joinBytes a3l a3h, color := joinBytes cl ch, blend := bl, pix := ps } }
      | none => .error .recordLength
    else .error .recordPadding
  | _ => .error .recordLength

/-- The instruction a record stands for, by its kind (30_encoding.md R85): 1 FILL, 2 IMAGE, 3 RECT, any other value
ILLEGAL_KIND. -/
def recordInstr (c : CmdRecord) : Instr :=
  if c.kind = 1 then .fill c.body
  else if c.kind = 2 then .image c.body
  else if c.kind = 3 then .rect c.body
  else .illegalKind c.kind c.body

/-- The record that a CMD transaction carries (30_encoding.md R85); none for an event of another channel. -/
def instrRecord : Instr → Option CmdRecord
  | .fill b => some { kind := 1, body := b }
  | .image b => some { kind := 2, body := b }
  | .rect b => some { kind := 3, body := b }
  | .illegalKind k b => some { kind := k, body := b }
  | .fillFirst => none
  | .imageFirst => none
  | .rectFirst => none
  | .fillCont => none
  | .imageCont => none
  | .rectCont => none
  | .pack565 _ _ _ => none
  | .pack555 _ _ _ => none
  | .accept => none
  | .issueFirst => none
  | .issueCont => none
  | .writeOk => none
  | .writeErr => none
  | .reset => none

/-- The control bytes the CPE emits (30_encoding.md R71, R72, section 7). -/
def decodeCtrl (b : Byte) : Except DecodeError Instr :=
  if b = 0xC1 then .ok .fillFirst
  else if b = 0xC2 then .ok .imageFirst
  else if b = 0xC3 then .ok .rectFirst
  else if b = 0x01 then .ok .fillCont
  else if b = 0x02 then .ok .imageCont
  else if b = 0x03 then .ok .rectCont
  else .error .ctrlNeverEmitted

/-- How many bytes QMODE and three inputs of `w` bits take. -/
def qzLength (w : Nat) : Nat := (1 + 3 * w + 7) / 8

/-- A quantizer word as a number: QMODE at bit 0 (the table's place for it), then r, g and b, `w` bits each. -/
def qzNat (w mode r g b : Nat) : Nat := mode + 2 * (r + 2 ^ w * (g + 2 ^ w * b))

/-- The quantizer evaluation that a word of inputs of `w` bits stands for (30_encoding.md R86, R87). -/
def decodeQz (w : Nat) (bs : Bytes) : Except DecodeError Instr :=
  if bs.length = qzLength w then
    let v := bytesNat bs
    if v < 2 ^ (1 + 3 * w) then
      let r := BitVec.ofNat 32 (v / 2 % 2 ^ w)
      let g := BitVec.ofNat 32 (v / 2 / 2 ^ w % 2 ^ w)
      let b := BitVec.ofNat 32 (v / 2 / 2 ^ w / 2 ^ w % 2 ^ w)
      if v % 2 = 0 then .ok (.pack565 r g b) else .ok (.pack555 r g b)
    else .error .qzPadding
  else .error .qzLength

/-- The step events. The table gives a STEP row a guard and no bit pattern: the codes are the model's (log entry 4). -/
def decodeStep (b : Byte) : Except DecodeError Instr :=
  if b = 0 then .ok .accept
  else if b = 1 then .ok .issueFirst
  else if b = 2 then .ok .issueCont
  else if b = 3 then .ok .writeOk
  else if b = 4 then .ok .writeErr
  else if b = 5 then .ok .reset
  else .error .stepUnknown

/-- The decoder: total, and rejecting by name. -/
def decode (p : Params) (w : EventWord) : Except DecodeError Instr :=
  match w.format with
  | .cmdRecord =>
    match decodeRecord w.bytes with
    | .ok c => .ok (recordInstr c)
    | .error e => .error e
  | .ctrl =>
    match w.bytes with
    | [b] => decodeCtrl b
    | _ => .error .ctrlLength
  | .qz => decodeQz p.chW w.bytes
  | .step =>
    match w.bytes with
    | [b] => decodeStep b
    | _ => .error .stepLength

/-- A record as an event word. -/
def recordEvent (kind : Opcode) (b : CmdBody) : EventWord :=
  { format := .cmdRecord, bytes := recordBytes { kind := kind, body := b } }

/-- A control byte as an event word. -/
def ctrlEvent (b : Byte) : EventWord := { format := .ctrl, bytes := [b] }

/-- A quantizer evaluation as an event word. -/
def qzEvent (w mode : Nat) (r g b : ChannelValue) : EventWord :=
  { format := .qz, bytes := natBytes (qzLength w) (qzNat w mode r.toNat g.toNat b.toNat) }

/-- A step event as an event word. -/
def stepEvent (code : Byte) : EventWord := { format := .step, bytes := [code] }

/-- The encoder: the event word of an instruction. -/
def encode (p : Params) : Instr → EventWord
  | .fill b => recordEvent 1 b
  | .image b => recordEvent 2 b
  | .rect b => recordEvent 3 b
  | .illegalKind k b => recordEvent k b
  | .fillFirst => ctrlEvent 0xC1
  | .imageFirst => ctrlEvent 0xC2
  | .rectFirst => ctrlEvent 0xC3
  | .fillCont => ctrlEvent 0x01
  | .imageCont => ctrlEvent 0x02
  | .rectCont => ctrlEvent 0x03
  | .pack565 r g b => qzEvent p.chW 0 r g b
  | .pack555 r g b => qzEvent p.chW 1 r g b
  | .accept => stepEvent 0
  | .issueFirst => stepEvent 1
  | .issueCont => stepEvent 2
  | .writeOk => stepEvent 3
  | .writeErr => stepEvent 4
  | .reset => stepEvent 5

/-- The format a bare table word is read in. The table's rows of different formats share words (0x01 is FILL, FILL.CONT
and PACK555), so a bare word of 8 bits is read as the first of: a control byte where bits 7:6 are both 1, a quantizer
word where it is 0, a command record. A word of one bit is a quantizer word (log entry 5). -/
def tableFormat (nbits w : Nat) : EventFormat :=
  if nbits ≤ 1 then .qz
  else if nbits ≤ 8 ∧ 192 ≤ w then .ctrl
  else if nbits ≤ 8 ∧ w = 0 then .qz
  else .cmdRecord

/-- A bare table word as an event word, the bits above `nbits` zero. -/
def tableEvent (p : Params) (nbits w : Nat) : EventWord :=
  let v := w % 2 ^ nbits
  match tableFormat nbits v with
  | .cmdRecord => { format := .cmdRecord, bytes := natBytes (max 12 ((nbits + 7) / 8)) v }
  | .ctrl => { format := .ctrl, bytes := natBytes 1 v }
  | .qz => { format := .qz, bytes := natBytes (qzLength p.chW) v }
  | .step => { format := .step, bytes := natBytes 1 v }

/-- What the decoder reads from a bare table word, for the default instance. -/
def decodeTableWord (nbits w : Nat) : Option Instr :=
  match decode Params.default (tableEvent Params.default nbits w) with
  | .ok i => some i
  | .error _ => none

end Sys2Proof
end

