-- ==== Sys2Proof/Machine/State.lean ====
section
/-! DEFINITION. The state of the CPE (10_state.md R20), its channels (20_memory.md R51), and the reasons a step
can stop. -/

namespace Sys2Proof.Machine

open Sys2Proof

/-- PH, the framer phase (10_state.md R21). -/
inductive Phase where
  | idle
  | issue
  | wait
  | fault
deriving DecidableEq, Repr

/-- ERRC, the fault code (10_state.md R29, 60_exceptions.md R201). The reserved codes 4 to 7 are never produced and have
no constructor. -/
inductive ErrCode where
  | none
  | writeErr
  | illegalKind
  | pixLen
deriving DecidableEq, Repr

/-- The machine stops with no fault: every fault of the CPE is a state it enters, PH = FAULT, from which a reset leads
on (60_exceptions.md R203, R206). So there is no constructor (log entry 20). -/
inductive Fault where
deriving DecidableEq, Repr

/-- Why a step is refused. -/
inductive Refusal where
  /-- Raised by exec's arm of an instruction that has no meaning yet; no arm is left that raises it. Safe. -/
  | notModelled (mnemonic : String)
  /-- Raised by `step` for an instance whose parameters are out of range (00_scope.md R5, 70_reset_and_hazards.md R236).
  Safe: the spec asks a model to refuse such an instance. -/
  | illegalInstance
  /-- Raised by `step` for an event word that stands for no event of the CPE. Safe: nothing happens. -/
  | undecodable (e : DecodeError)
deriving DecidableEq, Repr

/-- The state. -/
structure State where
  /-- PH (10_state.md R21) -/
  ph : Phase
  /-- FIRST (10_state.md R22) -/
  first : Bool
  /-- OP (10_state.md R25) -/
  op : Opcode
  /-- HDR (10_state.md R26) -/
  hdr : Bytes
  /-- PAY (10_state.md R27) -/
  pay : Bytes
  /-- OFF (10_state.md R23) -/
  off : BitVec 33
  /-- PEND (10_state.md R28) -/
  pend : Bytes
  /-- ERRC (10_state.md R29) -/
  errc : ErrCode
  /-- CMDL (10_state.md R24) -/
  cmdl : CmdRecord
  /-- GEOV (10_state.md R30) -/
  geov : Bool
  /-- PKTIDX (10_state.md R31) -/
  pktidx : BitVec 32
  /-- the instance parameters, PKT_MAX in CFG among them (10_state.md R33, 00_scope.md R6) -/
  params : Params
  /-- the offer that waits on CMD (42_framer.md R151; log entry 3) -/
  cmdOffer : Option CmdRecord
  /-- the packets presented on PKT so far, oldest first (20_memory.md R52; log entry 9) -/
  pktOut : List Bytes
  /-- the colors returned on QZ so far, oldest first (40_quantizer.md R100; log entry 9) -/
  qzOut : List Color
  /-- the agents' moves still to come, next first (42_framer.md section 1; log entry 2) -/
  inbox : List EventWord
  /-- how many free values have been used (the model's own; log entry 7) -/
  freeIdx : Nat
deriving DecidableEq, Repr

/-- CMDL's value in `State.reset`: the spec gives none (DESIGN CHOICE, log entry 6). -/
def resetCmdl : CmdRecord :=
  { kind := 0, body := { a0 := 0, a1 := 0, a2 := 0, a3 := 0, color := 0, blend := 0, pix := [] } }

/-- The machine right after reset (10_state.md R36), the default instance, nothing offered and nothing scheduled. -/
def State.reset : State where
  ph := .idle
  first := false
  op := 0
  hdr := []
  pay := []
  off := 0
  pend := []
  errc := .none
  cmdl := resetCmdl
  geov := false
  pktidx := 0
  params := Params.default
  cmdOffer := none
  pktOut := []
  qzOut := []
  inbox := []
  freeIdx := 0

end Sys2Proof.Machine
end

