-- ==== Sys2Proof/Machine/Operands.lean ====
section
/-! DEFINITION. The operand forms: 16-bit fields as wire bytes, the control byte, the named blend values, the clamp and
the packed color, and the sums of a RECT. -/

namespace Sys2Proof.Machine

open Sys2Proof

/-- `le16(v)`: the byte with bits 7:0 first (00_scope.md R10, 20_memory.md R50). -/
def le16 (v : BitVec 16) : Bytes := [v.extractLsb' 0 8, v.extractLsb' 8 8]

/-- The blend byte of a named operation, in the listed order (30_encoding.md R76). -/
def blendCode : Blend → Byte
  | .copy => 0
  | .xor => 1
  | .or => 2
  | .and => 3

/-- The first packet's control byte, `0x80 | 0x40 | OP` (30_encoding.md R71). -/
def firstCtrl (op : Opcode) : Byte := 0xC0#8 ||| op.setWidth 8

/-- A continuation packet's control byte, `OP` (30_encoding.md R72). -/
def contCtrl (op : Opcode) : Byte := op.setWidth 8

/-- START, bit 7 of a control byte (30_encoding.md R70). -/
def ctrlStart (b : Byte) : Bool := b.getLsbD 7

/-- CLEAR, bit 6 of a control byte (30_encoding.md R70). -/
def ctrlClear (b : Byte) : Bool := b.getLsbD 6

/-- OPC, bits 5:0 of a control byte (30_encoding.md R70). -/
def ctrlOpc (b : Byte) : Opcode := b.extractLsb' 0 6

/-- The header length of an opcode's command (30_encoding.md R74). A reserved opcode has no header. -/
def headerLength (op : Opcode) : Nat :=
  if op = 2 then 9 else if op = 3 then 8 else 0

/-- `clamp(v, m)`, a saturation by value (40_quantizer.md R101). -/
def clamp (v m : Nat) : Nat := min v m

/-- The 5-6-5 color word of three channel values (30_encoding.md R78, 40_quantizer.md R102): red in bits 4:0, green in
10:5, blue in 15:11. -/
def pack565Color (r g b : Nat) : Color :=
  BitVec.ofNat 16 (clamp r 0x1F ||| (clamp g 0x3F <<< 5) ||| (clamp b 0x1F <<< 11))

/-- The 5-5-5 color word: green is doubled, then clamped as in 5-6-5 mode (40_quantizer.md R103, 90_conflicts.md C3,
C9). -/
def pack555Color (r g b : Nat) : Color :=
  BitVec.ofNat 16 (clamp r 0x1F ||| (clamp (2 * g) 0x3F <<< 5) ||| (clamp b 0x1F <<< 11))

/-- The exact sum of an edge and a size, 17 bits wide at most (41_encoder.md R120, R128). -/
def edgeSum (edge size : Geom) : Nat := edge.toNat + size.toNat

/-- The far edge as it goes on the wire: the sum's low 16 bits (41_encoder.md R128). -/
def farEdge (edge size : Geom) : Geom := BitVec.ofNat 16 (edgeSum edge size)

end Sys2Proof.Machine
end

