-- ==== Sys2Proof/Machine/Flags.lean ====
section
/-! DEFINITION. The flag GEOV and the host-visible registers STATUS, CFG and PKTIDX (10_state.md R30 to R34). -/

namespace Sys2Proof.Machine

open Sys2Proof

/-- A RECT's geometry wraps: a 17-bit sum exceeds 0xFFFF (41_encoder.md R128, 10_state.md R30). -/
def rectWraps (b : CmdBody) : Bool :=
  0xFFFF < edgeSum b.a0 b.a2 || 0xFFFF < edgeSum b.a1 b.a3

/-- PH's code (10_state.md R21). -/
def Phase.code : Phase → BitVec 2
  | .idle => 0
  | .issue => 1
  | .wait => 2
  | .fault => 3

/-- ERRC's code (60_exceptions.md R201). -/
def ErrCode.code : ErrCode → BitVec 3
  | .none => 0
  | .writeErr => 1
  | .illegalKind => 2
  | .pixLen => 3

/-- A REG read of STATUS (10_state.md R32): bits 15:7 zero, GEOV, ERRC in 5:3, FIRST, PH in 1:0. -/
def readStatus (s : State) : BitVec 16 :=
  0#9 ++ BitVec.ofBool s.geov ++ ErrCode.code s.errc ++ BitVec.ofBool s.first ++ Phase.code s.ph

/-- A REG read of CFG: PKT_MAX (10_state.md R33). -/
def readCfg (s : State) : BitVec 8 := BitVec.ofNat 8 s.params.pktMax

/-- A REG read of PKTIDX (10_state.md R34). -/
def readPktidx (s : State) : BitVec 32 := s.pktidx

end Sys2Proof.Machine
end

