-- ==== Sys2Proof/Machine/Encoder.lean ====
section
/-! DEFINITION. The encoder unit ENC: `Enc(c)`, one definition per arm (41_encoder.md R120 to R132). -/

namespace Sys2Proof.Machine

open Sys2Proof

/-- What `Enc` returns (41_encoder.md R120). -/
inductive EncResult where
  | ok (op : Opcode) (hdr pay : Bytes) (geov : Bool)
  | bad (code : ErrCode)
deriving DecidableEq, Repr

/-- FILL: an empty header, the color as payload (41_encoder.md R121). -/
def encFill (b : CmdBody) : EncResult := .ok 1 [] (le16 b.color) false

/-- RECT: the four edges as header, color and blend as payload (41_encoder.md R122, layout SPLIT_8_3). -/
def encRect (b : CmdBody) : EncResult :=
  .ok 3 (le16 b.a0 ++ le16 b.a1 ++ le16 (farEdge b.a0 b.a2) ++ le16 (farEdge b.a1 b.a3))
    (le16 b.color ++ [b.blend]) (rectWraps b)

/-- The pixel sequence has the length w*h, the product taken exactly (41_encoder.md R125). -/
def pixLengthOk (b : CmdBody) : Bool := b.pix.length = b.a2.toNat * b.a3.toNat

/-- IMAGE: x, y, w, h and blend as header, the pixels in index order as payload (41_encoder.md R123); PIX_LEN where the
pixel sequence has another length than w*h (R125). -/
def encImage (b : CmdBody) : EncResult :=
  if pixLengthOk b then
    .ok 2 (le16 b.a0 ++ le16 b.a1 ++ le16 b.a2 ++ le16 b.a3 ++ [b.blend]) (b.pix.flatMap le16) false
  else .bad .pixLen

/-- `Enc(c)`, a pure function of the record (41_encoder.md R120). A kind other than 1, 2 and 3 is refused before the
pixel length is looked at (R130, R131). -/
def enc (c : CmdRecord) : EncResult :=
  if c.kind = 1 then encFill c.body
  else if c.kind = 3 then encRect c.body
  else if c.kind = 2 then encImage c.body
  else .bad .illegalKind

end Sys2Proof.Machine
end

