-- ==== Sys2Proof/Machine/Packets.lean ====
section
/-! DEFINITION. Packet construction and the boundary arithmetic (42_framer.md R152, R153, R157 to R161). `M` is
PKT_MAX throughout. -/

namespace Sys2Proof.Machine

open Sys2Proof

/-- The payload bytes a first packet carries: `n0 = min(len(PAY), PKT_MAX - len(HDR))` (42_framer.md R157). -/
def firstCount (M : Nat) (hdr pay : Bytes) : Nat := min pay.length (M - hdr.length)

/-- The first packet (42_framer.md R152, 30_encoding.md R82). -/
def firstPacket (M : Nat) (op : Opcode) (hdr pay : Bytes) : Bytes :=
  firstCtrl op :: (hdr ++ pay.take (firstCount M hdr pay))

/-- The payload bytes a continuation packet at offset `off` carries: `n = min(len(PAY) - OFF, PKT_MAX)`
(42_framer.md R153). -/
def contCount (M : Nat) (pay : Bytes) (off : Nat) : Nat := min (pay.length - off) M

/-- The continuation packet at offset `off` (42_framer.md R153, 30_encoding.md R83). -/
def contPacket (M : Nat) (op : Opcode) (pay : Bytes) (off : Nat) : Bytes :=
  contCtrl op :: (pay.drop off).take (contCount M pay off)

/-- The continuation packets from offset `off` on: the while-loop of 42_framer.md R158, which stops when
`off = len(pay)`. `fuel` bounds the turns; `len(pay)` turns always suffice, since a turn advances by at least one byte
where PKT_MAX is not 0. -/
def contPackets (M : Nat) (op : Opcode) (pay : Bytes) : Nat → Nat → List Bytes
  | 0, _ => []
  | fuel + 1, off =>
    if off < pay.length then
      contPacket M op pay off :: contPackets M op pay fuel (off + contCount M pay off)
    else []

/-- `Frame(op, hdr, pay)`: the packet sequence of one command (42_framer.md R158). -/
def frame (M : Nat) (op : Opcode) (hdr pay : Bytes) : List Bytes :=
  firstPacket M op hdr pay :: contPackets M op pay pay.length (firstCount M hdr pay)

/-- `ceil(a / b)` for b > 0 (00_scope.md R10). -/
def ceilDiv (a b : Nat) : Nat := (a + b - 1) / b

/-- `N(H, P)`, the packet count (42_framer.md R159). -/
def packetCount (M H P : Nat) : Nat := 1 + ceilDiv (P - (M - H)) M

/-- A command as a receiver rebuilds it: opcode, header and payload (42_framer.md R161). -/
structure Rebuilt where
  op  : Opcode
  hdr : Bytes
  pay : Bytes
deriving DecidableEq, Repr

/-- The commands of a packet stream, each as its opcode and its body bytes: a packet with START = 1 opens a command, any
other adds its bytes to the open one (42_framer.md R161). `opened` holds the commands begun so far, the last one first.
A continuation before any first packet belongs to no command and is dropped; the CPE sends none. -/
def collectBodies : List (Opcode × Bytes) → List Bytes → List (Opcode × Bytes)
  | opened, [] => opened.reverse
  | opened, [] :: rest => collectBodies opened rest
  | opened, (c :: body) :: rest =>
    if ctrlStart c then collectBodies ((ctrlOpc c, body) :: opened) rest
    else
      match opened with
      | [] => collectBodies [] rest
      | (op, sofar) :: others => collectBodies ((op, sofar ++ body) :: others) rest

/-- A body split at its opcode's header length (42_framer.md R161). -/
def splitBody (c : Opcode × Bytes) : Rebuilt :=
  { op := c.1, hdr := c.2.take (headerLength c.1), pay := c.2.drop (headerLength c.1) }

/-- `Reassemble(stream)` (42_framer.md R161): the spec's check on the CPE's output, not a model of the device. -/
def reassemble (stream : List Bytes) : List Rebuilt := (collectBodies [] stream).map splitBody

end Sys2Proof.Machine
end

