-- ==== Sys2Proof/Machine/Ops.lean ====
section
/-! DEFINITION. The shared operations: entering a fault, latching a command, presenting a packet, taking a write result,
resetting, and a move whose guard is false. -/

namespace Sys2Proof.Machine

open Sys2Proof

/-- `raise Fault(code)` (60_exceptions.md R203): PH, ERRC and PEND are written and nothing else, and no packet is
emitted. Leaving the fault is `resetElements` alone (R206). -/
def raiseFault (code : ErrCode) (s : State) : State :=
  { s with ph := .fault, errc := code, pend := [] }

/-- ACCEPT's effect on an accepted record (42_framer.md R150, the `Ok` arm). -/
def latchOk (c : CmdRecord) (op : Opcode) (hdr pay : Bytes) (geov : Bool) (s : State) : State :=
  { s with
    cmdl := c, pktidx := 0, op := op, hdr := hdr, pay := pay, off := 0, first := true, geov := geov
    errc := .none, ph := .issue }

/-- ACCEPT's effect on a refused record (42_framer.md R150, the `Bad` arm): OP, HDR, PAY, OFF and FIRST keep their
values. -/
def latchBad (c : CmdRecord) (code : ErrCode) (s : State) : State :=
  raiseFault code { s with cmdl := c, pktidx := 0, geov := false }

/-- ACCEPT's effect on the record `c` (42_framer.md R150). -/
def latchCommand (c : CmdRecord) (s : State) : State :=
  match enc c with
  | .ok op hdr pay geov => latchOk c op hdr pay geov s
  | .bad code => latchBad c code s

/-- The host's offer stands on CMD (20_memory.md R53; log entry 3). -/
def standOffer (c : CmdRecord) (s : State) : State := { s with cmdOffer := some c }

/-- The offer on CMD has been taken. -/
def takeOffer (s : State) : State := { s with cmdOffer := none }

/-- A move whose guard is false does not happen: no element changes (42_framer.md R151, R163, 60_exceptions.md R207;
log entry 1). -/
def noStep (s : State) : Host.Outcome State Fault Refusal := .next s

/-- The ACCEPT step: guard PH = IDLE and an offer on CMD (42_framer.md R150). -/
def acceptOffer (s : State) : Host.Outcome State Fault Refusal :=
  match s.ph, s.cmdOffer with
  | .idle, some c => .next (latchCommand c (takeOffer s))
  | _, _ => noStep s

/-- A CMD transaction (20_memory.md R53): the record is taken at once where PH = IDLE, and waits on CMD otherwise
(42_framer.md R151; log entry 3). -/
def cmdTransaction (c : CmdRecord) (s : State) : Host.Outcome State Fault Refusal :=
  acceptOffer (standOffer c s)

/-- `PEND <- p; PH <- WAIT; emit PKT(p)`, with OFF advanced to `off` and FIRST cleared: the common end of the two ISSUE
steps (42_framer.md R152, R153). A continuation finds FIRST = 0, so clearing it there changes nothing. -/
def presentPacket (p : Bytes) (off : BitVec 33) (s : State) : State :=
  { s with off := off, first := false, pend := p, ph := .wait, pktOut := s.pktOut ++ [p] }

/-- The ISSUE step of a first packet: guard PH = ISSUE and FIRST = 1 (42_framer.md R152). -/
def issueFirstPacket (s : State) : Host.Outcome State Fault Refusal :=
  if s.ph = .issue ∧ s.first = true then
    .next (presentPacket (firstPacket s.params.pktMax s.op s.hdr s.pay)
      (BitVec.ofNat 33 (firstCount s.params.pktMax s.hdr s.pay)) s)
  else noStep s

/-- The ISSUE step of a continuation packet: guard PH = ISSUE and FIRST = 0 (42_framer.md R153). -/
def issueContPacket (s : State) : Host.Outcome State Fault Refusal :=
  if s.ph = .issue ∧ s.first = false then
    .next (presentPacket (contPacket s.params.pktMax s.op s.pay s.off.toNat)
      (s.off + BitVec.ofNat 33 (contCount s.params.pktMax s.pay s.off.toNat)) s)
  else noStep s

/-- The issue of a first packet of the opcode `op` (30_encoding.md R71; log entry 12). -/
def issueFirstOf (op : Opcode) (s : State) : Host.Outcome State Fault Refusal :=
  if s.op = op then issueFirstPacket s else noStep s

/-- The issue of a continuation packet of the opcode `op` (30_encoding.md R72; log entry 12). -/
def issueContOf (op : Opcode) (s : State) : Host.Outcome State Fault Refusal :=
  if s.op = op then issueContPacket s else noStep s

/-- The phase after an OK answer: IDLE where the whole payload has been carried (42_framer.md R154, R156). -/
def phaseAfterOk (s : State) : Phase :=
  if s.off.toNat = s.pay.length then .idle else .issue

/-- WRITE_OK's effect (42_framer.md R154). -/
def answerOk (s : State) : State :=
  { s with pktidx := s.pktidx + 1, pend := [], ph := phaseAfterOk s }

/-- WRITE_ERR's effect (42_framer.md R155). -/
def answerErr (s : State) : State := raiseFault .writeErr { s with pend := [] }

/-- A write result is taken only while PH = WAIT (42_framer.md R163). -/
def takeAnswer (effect : State → State) (s : State) : Host.Outcome State Fault Refusal :=
  if s.ph = .wait then .next (effect s) else noStep s

/-- A quantizer evaluation returns `c` on QZ and touches no state element (40_quantizer.md R100). -/
def returnColor (c : Color) (s : State) : State := { s with qzOut := s.qzOut ++ [c] }

/-- RESET (70_reset_and_hazards.md R230): every element at its reset value, CMDL a free value (log entry 7), the
parameters unchanged, no packet emitted. The channels are not state elements and stay (log entries 3 and 9). -/
def resetElements (s : State) : State :=
  { s with
    ph := .idle, first := false, op := 0, hdr := [], pay := [], off := 0, pend := [], errc := .none
    geov := false, pktidx := 0, cmdl := Config.freeCmdl s.freeIdx, freeIdx := s.freeIdx + 1 }

/-- The schedule without its first entry. -/
def popEvent (s : State) : State := { s with inbox := s.inbox.tail }

/-- The schedule with an entry put before the others. -/
def pushEvent (w : EventWord) (s : State) : State := { s with inbox := w :: s.inbox }

end Sys2Proof.Machine
end

