-- ==== Sys2Proof/Machine/Command.lean ====
section
/-! DEFINITION. The CMD_RECORD family: FILL, IMAGE, RECT and ILLEGAL_KIND, each one CMD transaction. -/

namespace Sys2Proof.Machine

open Sys2Proof

/-- FILL (41_encoder.md R121). -/
def execFill (b : CmdBody) (s : State) : Host.Outcome State Fault Refusal :=
  cmdTransaction { kind := 1, body := b } s

/-- IMAGE (41_encoder.md R123, R125). -/
def execImage (b : CmdBody) (s : State) : Host.Outcome State Fault Refusal :=
  cmdTransaction { kind := 2, body := b } s

/-- RECT (41_encoder.md R122, R128). -/
def execRect (b : CmdBody) (s : State) : Host.Outcome State Fault Refusal :=
  cmdTransaction { kind := 3, body := b } s

/-- ILLEGAL_KIND: a record of a reserved kind (41_encoder.md R130). -/
def execIllegalKind (kind : Opcode) (b : CmdBody) (s : State) : Host.Outcome State Fault Refusal :=
  cmdTransaction { kind := kind, body := b } s

end Sys2Proof.Machine
end

