-- ==== Sys2Proof/Machine/Control.lean ====
section
/-! DEFINITION. The CTRL_FIRST and CTRL_CONT families: the issue of a packet with the row's control byte
(30_encoding.md R71, R72; log entry 12). -/

namespace Sys2Proof.Machine

open Sys2Proof

/-- FILL.FIRST: control byte 0xC1. -/
def execFillFirst (s : State) : Host.Outcome State Fault Refusal := issueFirstOf 1 s

/-- IMAGE.FIRST: control byte 0xC2. -/
def execImageFirst (s : State) : Host.Outcome State Fault Refusal := issueFirstOf 2 s

/-- RECT.FIRST: control byte 0xC3. -/
def execRectFirst (s : State) : Host.Outcome State Fault Refusal := issueFirstOf 3 s

/-- FILL.CONT: control byte 0x01. No state reached from reset has its guard true (30_encoding.md section 7). -/
def execFillCont (s : State) : Host.Outcome State Fault Refusal := issueContOf 1 s

/-- IMAGE.CONT: control byte 0x02. -/
def execImageCont (s : State) : Host.Outcome State Fault Refusal := issueContOf 2 s

/-- RECT.CONT: control byte 0x03. -/
def execRectCont (s : State) : Host.Outcome State Fault Refusal := issueContOf 3 s

end Sys2Proof.Machine
end

