-- ==== Sys2Proof/Machine/Framer.lean ====
section
/-! DEFINITION. The STEP family: ACCEPT, ISSUE_FIRST, ISSUE_CONT, WRITE_OK, WRITE_ERR and RESET, and the CPE's own
move where no event is scheduled. -/

namespace Sys2Proof.Machine

open Sys2Proof

/-- ACCEPT (42_framer.md R150). -/
def execAccept (s : State) : Host.Outcome State Fault Refusal := acceptOffer s

/-- ISSUE_FIRST (42_framer.md R152). -/
def execIssueFirst (s : State) : Host.Outcome State Fault Refusal := issueFirstPacket s

/-- ISSUE_CONT (42_framer.md R153). -/
def execIssueCont (s : State) : Host.Outcome State Fault Refusal := issueContPacket s

/-- WRITE_OK (42_framer.md R154). -/
def execWriteOk (s : State) : Host.Outcome State Fault Refusal := takeAnswer answerOk s

/-- WRITE_ERR (42_framer.md R155). -/
def execWriteErr (s : State) : Host.Outcome State Fault Refusal := takeAnswer answerErr s

/-- RESET (70_reset_and_hazards.md R230): enabled in every phase. -/
def execReset (s : State) : Host.Outcome State Fault Refusal := .next (resetElements s)

/-- The CPE's own move where no other agent moves (42_framer.md R165; log entries 2 and 14): the enabled ISSUE step in
PH = ISSUE, ACCEPT of a waiting offer in PH = IDLE. In WAIT only the transport's answer moves the CPE on and in FAULT
only a reset does, so it stays as it is. -/
def ownMove (s : State) : Host.Outcome State Fault Refusal :=
  match s.ph, s.first with
  | .idle, _ => execAccept s
  | .issue, true => execIssueFirst s
  | .issue, false => execIssueCont s
  | .wait, _ => noStep s
  | .fault, _ => noStep s

end Sys2Proof.Machine
end

