-- ==== Sys2Proof/Machine/Quantizer.lean ====
section
/-! DEFINITION. The QZ family: PACK565 and PACK555 (40_quantizer.md). -/

namespace Sys2Proof.Machine

open Sys2Proof

/-- PACK565 (40_quantizer.md R102). -/
def execPack565 (r g b : ChannelValue) (s : State) : Host.Outcome State Fault Refusal :=
  .next (returnColor (pack565Color r.toNat g.toNat b.toNat) s)

/-- PACK555 (40_quantizer.md R103). -/
def execPack555 (r g b : ChannelValue) (s : State) : Host.Outcome State Fault Refusal :=
  .next (returnColor (pack555Color r.toNat g.toNat b.toNat) s)

end Sys2Proof.Machine
end

