-- ==== Sys2Proof/Machine/Dispatch.lean ====
section
/-! DEFINITION. One arm per instruction. -/

namespace Sys2Proof.Machine

open Sys2Proof

def exec (i : Instr) (s : State) : Host.Outcome State Fault Refusal :=
  match i with
  | .fill b => Sys2Proof.Machine.execFill b s
  | .image b => Sys2Proof.Machine.execImage b s
  | .rect b => Sys2Proof.Machine.execRect b s
  | .illegalKind k b => Sys2Proof.Machine.execIllegalKind k b s
  | .fillFirst => Sys2Proof.Machine.execFillFirst s
  | .imageFirst => Sys2Proof.Machine.execImageFirst s
  | .rectFirst => Sys2Proof.Machine.execRectFirst s
  | .fillCont => Sys2Proof.Machine.execFillCont s
  | .imageCont => Sys2Proof.Machine.execImageCont s
  | .rectCont => Sys2Proof.Machine.execRectCont s
  | .pack565 r g b => Sys2Proof.Machine.execPack565 r g b s
  | .pack555 r g b => Sys2Proof.Machine.execPack555 r g b s
  | .accept => Sys2Proof.Machine.execAccept s
  | .issueFirst => Sys2Proof.Machine.execIssueFirst s
  | .issueCont => Sys2Proof.Machine.execIssueCont s
  | .writeOk => Sys2Proof.Machine.execWriteOk s
  | .writeErr => Sys2Proof.Machine.execWriteErr s
  | .reset => Sys2Proof.Machine.execReset s

end Sys2Proof.Machine
end

