-- ==== Sys2Proof/Machine/Step.lean ====
section
/-! DEFINITION. One step of the machine: the scheduled agent's event, or the CPE's own move (log entry 2). -/

namespace Sys2Proof.Machine

open Sys2Proof

/-- One step. An instance with parameters out of range is refused (00_scope.md R5). Otherwise the first event word of
the schedule is taken off and runs; where none is scheduled the CPE makes its own move. -/
def step (s : State) : Host.Outcome State Fault Refusal :=
  if s.params.Legal then
    match s.inbox with
    | [] => ownMove s
    | w :: _ =>
      match decode s.params w with
      | .ok i => exec i (popEvent s)
      | .error e => .refused (.undecodable e)
  else .refused .illegalInstance

/-- The state with a bare table word scheduled as the next event (log entry 5). -/
def State.withFetchWord (s : State) (nbits w : Nat) : State := pushEvent (tableEvent s.params nbits w) s

end Sys2Proof.Machine
end

