-- ==== Sys2Proof/Safety.lean ====
section
/-! DEFINITION. Good ends and faulted ends of a run, the invariant of the states reached from reset (10_state.md R35,
42_framer.md R166), and runs over a list of events. -/

namespace Sys2Proof.Machine

open Sys2Proof

/-- A good end: PH = IDLE (42_framer.md R166). -/
def GoodEnd (s : State) : Prop := s.ph = .idle

/-- A faulted end: PH = FAULT (42_framer.md R166). -/
def FaultedEnd (s : State) : Prop := s.ph = .fault

/-- A command is in progress: PH is ISSUE or WAIT (10_state.md R21). -/
def Active (s : State) : Prop := s.ph = .issue ∨ s.ph = .wait

/-- How many payload bytes the first `k` packets of a command carry (42_framer.md R157, R158). -/
def carried (M : Nat) (hdr pay : Bytes) : Nat → Nat
  | 0 => 0
  | k + 1 => min pay.length (M - hdr.length + k * M)

/-- Packet number `k` of a command, counted from 0 (42_framer.md R158). -/
def packetAt (M : Nat) (op : Opcode) (hdr pay : Bytes) : Nat → Bytes
  | 0 => firstPacket M op hdr pay
  | k + 1 => contPacket M op pay (carried M hdr pay (k + 1))

/-- The five items of 10_state.md R35. Item 1's first sentence is about later steps and is no property of a state; here
stands what it says of a state after reset or after a completed command. -/
structure StatedInv (s : State) : Prop where
  idle_values : s.ph = .idle → s.off.toNat = s.pay.length ∧ s.first = false ∧ s.errc = .none
  active_bounds : Active s →
    (s.op = 1 ∨ s.op = 2 ∨ s.op = 3) ∧ s.hdr.length ≤ 9 ∧ 9 ≤ s.params.pktMax ∧ s.off.toNat ≤ s.pay.length
  cont_remains : s.ph = .issue → s.first = false → s.off.toNat < s.pay.length
  pend_length : s.ph = .wait → 1 ≤ s.pend.length ∧ s.pend.length ≤ s.params.pktMax + 1
  errc_iff_fault : s.errc ≠ .none ↔ s.ph = .fault

/-- The invariant that every step keeps: R35 strengthened with what the latched command, OFF, PKTIDX and PEND are. -/
structure Inv (s : State) : Prop where
  legal : s.params.Legal
  idle_values : s.ph = .idle → s.off.toNat = s.pay.length ∧ s.first = false
  pend_empty : s.ph ≠ .wait → s.pend = []
  errc_iff_fault : s.errc ≠ .none ↔ s.ph = .fault
  latched : Active s → enc s.cmdl = .ok s.op s.hdr s.pay s.geov
  before_first : s.ph = .issue → s.first = true → s.off = 0 ∧ s.pktidx = 0
  before_cont : s.ph = .issue → s.first = false →
    1 ≤ s.pktidx.toNat ∧ s.off.toNat = carried s.params.pktMax s.hdr s.pay s.pktidx.toNat ∧
      s.off.toNat < s.pay.length
  outstanding : s.ph = .wait →
    s.first = false ∧ s.off.toNat = carried s.params.pktMax s.hdr s.pay (s.pktidx.toNat + 1) ∧
      (s.pktidx.toNat = 0 ∨ carried s.params.pktMax s.hdr s.pay s.pktidx.toNat < s.pay.length) ∧
      s.pend = packetAt s.params.pktMax s.op s.hdr s.pay s.pktidx.toNat

/-- The event `i` accepts the record `c` in the state `s`: it is the CMD transaction of `c`, or ACCEPT where `c` is the
offer on CMD, and PH = IDLE (42_framer.md R150). -/
def Accepts (i : Instr) (c : CmdRecord) (s : State) : Prop :=
  s.ph = .idle ∧ (instrRecord i = some c ∨ (i = .accept ∧ s.cmdOffer = some c))

/-- Events run one after the other, stopping where one does not answer a next state. -/
def execAll : List Instr → State → Host.Outcome State Fault Refusal
  | [], s => .next s
  | i :: is, s =>
    match exec i s with
    | .next t => execAll is t
    | .fault r => .fault r
    | .refused r => .refused r

/-- The events that carry `n` continuation packets, each answered OK. -/
def contEvents : Nat → List Instr
  | 0 => []
  | n + 1 => .issueCont :: .writeOk :: contEvents n

/-- The events that send a command of `n + 1` packets, each answered OK (42_framer.md R158). -/
def sendEvents (n : Nat) : List Instr := .issueFirst :: .writeOk :: contEvents n

end Sys2Proof.Machine
end

