-- ==== Sys2Proof/Certificates/Slice0/Obligations.lean ====
section
/-! DEFINITION. The statements about the CPE, for the provers. -/

open Sys2Proof Sys2Proof.Machine

/-! ## Reset -/

/-- 10_state.md R36: the values of the state right after reset, CMDL apart, which the spec leaves unspecified; CFG holds
PKT_MAX. -/
def Obligations.ResetStateHoldsResetValues : Prop :=
  State.reset.ph = .idle ∧ State.reset.first = false ∧ State.reset.op = 0 ∧ State.reset.hdr = [] ∧
    State.reset.pay = [] ∧ State.reset.off = 0 ∧ State.reset.pend = [] ∧ State.reset.errc = .none ∧
    State.reset.geov = false ∧ State.reset.pktidx = 0 ∧
    (readCfg State.reset).toNat = State.reset.params.pktMax ∧ readStatus State.reset = 0

/-- 70_reset_and_hazards.md R230: RESET completes in every phase and puts every element at its reset value, CMDL apart,
of which nothing is said; the parameters, and with them CFG, do not change and no packet is emitted. That the offer on
CMD, the colors returned and the schedule stay is the model's choice (log entries 3, 9 and 2). -/
def Obligations.ResetPutsEveryElementAtItsResetValue : Prop :=
  ∀ s : State, ∃ t : State, exec .reset s = .next t ∧
    t.ph = .idle ∧ t.first = false ∧ t.op = 0 ∧ t.hdr = [] ∧ t.pay = [] ∧ t.off = 0 ∧ t.pend = [] ∧
    t.errc = .none ∧ t.geov = false ∧ t.pktidx = 0 ∧
    t.params = s.params ∧ readCfg t = readCfg s ∧ t.pktOut = s.pktOut ∧
    t.cmdOffer = s.cmdOffer ∧ t.qzOut = s.qzOut ∧ t.inbox = s.inbox

/-- 70_reset_and_hazards.md R231: a reset while PH = WAIT abandons the outstanding packet, and a write result that comes
after it changes nothing (the model's form of 'not delivered', log entries 1 and 13). -/
def Obligations.ResetAbandonsTheOutstandingPacket : Prop :=
  ∀ s : State, s.ph = .wait → ∃ t : State, exec .reset s = .next t ∧ t.ph = .idle ∧ t.pend = [] ∧
    t.pktOut = s.pktOut ∧ exec .writeOk t = .next t ∧ exec .writeErr t = .next t

/-! ## Commands -/

/-- 41_encoder.md R121: FILL in PH = IDLE is accepted with op 1, an empty header and the color, low byte first, as
payload; GEOV is 0, and one packet always holds it. The whole next state is given (42_framer.md R150), so nothing else
changes. The model's choice: CMD holds no offer after it, also where another offer waited (log entry 3), and CMDL holds
the ignored fields too (log entry 8). -/
def Obligations.FillIsAcceptedWithItsColorAsPayload : Prop :=
  (∀ (b : CmdBody) (s : State), s.ph = .idle →
    exec (.fill b) s = .next { s with
      cmdl := { kind := 1, body := b }, pktidx := 0, op := 1, hdr := []
      pay := [b.color.extractLsb' 0 8, b.color.extractLsb' 8 8]
      off := 0, first := true, geov := false, errc := .none, ph := .issue, cmdOffer := none }) ∧
  ∀ (M : Nat) (color : Color), 9 ≤ M → (frame M 1 [] (le16 color)).length = 1

/-- 41_encoder.md R122, R128: RECT in PH = IDLE is accepted with op 3, the 8 geometry bytes as header (right and bottom
the sums' low 16 bits) and color and blend as payload; GEOV says that a sum exceeds 0xFFFF. The whole next state is
given (42_framer.md R150). The model's choice: CMD holds no offer after it, also where another offer waited (log
entry 3). -/
def Obligations.RectIsAcceptedWithItsEdgesAsHeader : Prop :=
  ∀ (b : CmdBody) (s : State), s.ph = .idle →
    exec (.rect b) s = .next { s with
      cmdl := { kind := 3, body := b }, pktidx := 0, op := 3
      hdr := [b.a0.extractLsb' 0 8, b.a0.extractLsb' 8 8, b.a1.extractLsb' 0 8, b.a1.extractLsb' 8 8,
        (BitVec.ofNat 16 ((b.a0.toNat + b.a2.toNat) % 65536)).extractLsb' 0 8,
        (BitVec.ofNat 16 ((b.a0.toNat + b.a2.toNat) % 65536)).extractLsb' 8 8,
        (BitVec.ofNat 16 ((b.a1.toNat + b.a3.toNat) % 65536)).extractLsb' 0 8,
        (BitVec.ofNat 16 ((b.a1.toNat + b.a3.toNat) % 65536)).extractLsb' 8 8]
      pay := [b.color.extractLsb' 0 8, b.color.extractLsb' 8 8, b.blend]
      off := 0, first := true
      geov := decide (b.a0.toNat + b.a2.toNat > 0xFFFF ∨ b.a1.toNat + b.a3.toNat > 0xFFFF)
      errc := .none, ph := .issue, cmdOffer := none }

/-- 41_encoder.md R123: IMAGE in PH = IDLE with w*h pixels is accepted with op 2, x, y, w, h and blend as header and the
pixels in index order, two bytes each, low byte first, as payload; GEOV is 0. The payload has 2*w*h bytes, and with
w = 0 or h = 0 the command is one packet of 10 bytes. The whole next state is given (42_framer.md R150). The model's
choice: CMD holds no offer after it, also where another offer waited (log entry 3). -/
def Obligations.ImageIsAcceptedWithItsPixelsAsPayload : Prop :=
  ∀ (b : CmdBody) (s : State), s.ph = .idle → b.pix.length = b.a2.toNat * b.a3.toNat →
    ∃ hdr pay : Bytes,
      hdr = [b.a0.extractLsb' 0 8, b.a0.extractLsb' 8 8, b.a1.extractLsb' 0 8, b.a1.extractLsb' 8 8,
        b.a2.extractLsb' 0 8, b.a2.extractLsb' 8 8, b.a3.extractLsb' 0 8, b.a3.extractLsb' 8 8, b.blend] ∧
      pay.length = 2 * (b.a2.toNat * b.a3.toNat) ∧ pay.length ≤ 8589672450 ∧
      (∀ (i : Nat) (c : Color), b.pix[i]? = some c →
        pay[2 * i]? = some (c.extractLsb' 0 8) ∧ pay[2 * i + 1]? = some (c.extractLsb' 8 8)) ∧
      exec (.image b) s = .next { s with
        cmdl := { kind := 2, body := b }, pktidx := 0, op := 2, hdr := hdr, pay := pay
        off := 0, first := true, geov := false, errc := .none, ph := .issue, cmdOffer := none } ∧
      (b.a2 = 0 ∨ b.a3 = 0 → ∀ M : Nat, 9 ≤ M → frame M 2 hdr pay = [0xC2 :: hdr])

/-- 41_encoder.md R125 with 42_framer.md R150: IMAGE in PH = IDLE with another number of pixels than w*h faults with
PIX_LEN at accept: CMDL holds the record, PKTIDX and GEOV are 0, and nothing else changes, so no packet is emitted. The
model's choice: CMD holds no offer after it, also where another offer waited (log entry 3). -/
def Obligations.ImageOfWrongPixelCountFaultsWithPixLen : Prop :=
  ∀ (b : CmdBody) (s : State), s.ph = .idle → b.pix.length ≠ b.a2.toNat * b.a3.toNat →
    exec (.image b) s = .next { s with
      cmdl := { kind := 2, body := b }, pktidx := 0, geov := false
      ph := .fault, errc := .pixLen, pend := [], cmdOffer := none }

/-- 41_encoder.md R130, R131 with 42_framer.md R150: a record with a reserved kind in PH = IDLE faults with
ILLEGAL_KIND, whatever its pixels: CMDL holds the record, PKTIDX and GEOV are 0, and nothing else changes, so no packet
is emitted. The model's choice: CMD holds no offer after it, also where another offer waited (log entry 3). -/
def Obligations.ReservedKindFaultsWithIllegalKind : Prop :=
  ∀ (k : Opcode) (b : CmdBody) (s : State), s.ph = .idle → (k = 0 ∨ 4 ≤ k.toNat) →
    exec (.illegalKind k b) s = .next { s with
      cmdl := { kind := k, body := b }, pktidx := 0, geov := false
      ph := .fault, errc := .illegalKind, pend := [], cmdOffer := none }

/-- 42_framer.md R151 in the model's form (log entries 1 and 3): in ISSUE, WAIT and FAULT a record offered on CMD waits
there, nothing else changes, and ACCEPT does nothing. -/
def Obligations.OfferOutsideIdleWaits : Prop :=
  ∀ (k : Opcode) (b : CmdBody) (s : State), s.ph ≠ .idle →
    exec (.fill b) s = .next { s with cmdOffer := some { kind := 1, body := b } } ∧
    exec (.image b) s = .next { s with cmdOffer := some { kind := 2, body := b } } ∧
    exec (.rect b) s = .next { s with cmdOffer := some { kind := 3, body := b } } ∧
    exec (.illegalKind k b) s = .next { s with cmdOffer := some { kind := k, body := b } } ∧
    exec .accept s = .next s

/-- 42_framer.md R150: ACCEPT in PH = IDLE takes the record offered on CMD and latches the encoder's result, or faults
with the encoder's code. The whole next state is given; the offer held as cmdOffer is the model's form of the channel
(log entry 3). -/
def Obligations.AcceptLatchesTheOfferedRecord : Prop :=
  ∀ (c : CmdRecord) (s : State), s.ph = .idle → s.cmdOffer = some c →
    (∀ (op : Opcode) (hdr pay : Bytes) (geov : Bool), enc c = .ok op hdr pay geov →
      exec .accept s = .next { s with
        cmdl := c, pktidx := 0, op := op, hdr := hdr, pay := pay, off := 0, first := true, geov := geov
        errc := .none, ph := .issue, cmdOffer := none }) ∧
    (∀ code : ErrCode, enc c = .bad code →
      exec .accept s = .next { s with
        cmdl := c, pktidx := 0, geov := false, ph := .fault, errc := code, pend := [], cmdOffer := none })

/-- 41_encoder.md R129: fields a kind does not use do not change Enc's result. -/
def Obligations.UnusedRecordFieldsDoNotChangeTheEncoding : Prop :=
  ∀ b b' : CmdBody,
    (b.color = b'.color → enc { kind := 1, body := b } = enc { kind := 1, body := b' }) ∧
    (enc { kind := 3, body := b } = enc { kind := 3, body := { b with pix := b'.pix } }) ∧
    (enc { kind := 2, body := b } = enc { kind := 2, body := { b with color := b'.color } })

/-- 41_encoder.md R132, 10_state.md R26, R27: the header and payload lengths of every accepted record, by kind. -/
def Obligations.AcceptedRecordsHaveTheirTableLengths : Prop :=
  ∀ (c : CmdRecord) (op : Opcode) (hdr pay : Bytes) (geov : Bool), enc c = .ok op hdr pay geov →
    op = c.kind ∧ hdr.length = headerLength op ∧ hdr.length ≤ 9 ∧ (∀ p : Params, p.Legal → hdr.length ≤ p.pktMax) ∧
    (c.kind = 1 ∧ hdr.length + pay.length = 2 ∨ c.kind = 3 ∧ hdr.length + pay.length = 11 ∨
      c.kind = 2 ∧ hdr.length + pay.length = 9 + 2 * (c.body.a2.toNat * c.body.a3.toNat))

/-! ## Packets -/

/-- 42_framer.md R152: ISSUE of the first packet. The whole next state is given; pktOut is the model's record of the
packets presented (log entry 9). -/
def Obligations.IssueFirstPresentsTheFirstPacket : Prop :=
  ∀ (s : State) (n0 : Nat) (p : Bytes), s.ph = .issue → s.first = true →
    n0 = min s.pay.length (s.params.pktMax - s.hdr.length) →
    p = [0xC0#8 ||| s.op.setWidth 8] ++ s.hdr ++ s.pay.take n0 →
    exec .issueFirst s = .next { s with
      off := BitVec.ofNat 33 n0, first := false, pend := p, ph := .wait, pktOut := s.pktOut ++ [p] }

/-- 42_framer.md R153: ISSUE of a continuation packet. The whole next state is given; pktOut is the model's record of
the packets presented (log entry 9). In a legal instance with OFF < len(PAY), 1 <= n <= PKT_MAX, and every continuation
but the last carries exactly PKT_MAX bytes. -/
def Obligations.IssueContPresentsTheNextPayloadBytes : Prop :=
  ∀ (s : State) (n : Nat) (p : Bytes), s.ph = .issue → s.first = false →
    n = min (s.pay.length - s.off.toNat) s.params.pktMax →
    p = [s.op.setWidth 8] ++ (s.pay.drop s.off.toNat).take n →
    exec .issueCont s = .next { s with
      off := s.off + BitVec.ofNat 33 n, pend := p, ph := .wait, pktOut := s.pktOut ++ [p] } ∧
    (s.params.Legal → s.off.toNat < s.pay.length →
      1 ≤ n ∧ n ≤ s.params.pktMax ∧ p.length = 1 + n ∧ (n = s.params.pktMax ∨ s.off.toNat + n = s.pay.length))

/-- 42_framer.md R154: WRITE_OK in WAIT counts the packet and ends the command where the whole payload has been
carried. The whole next state is given. -/
def Obligations.WriteOkCountsThePacketAndGoesOn : Prop :=
  ∀ s : State, s.ph = .wait →
    (s.off.toNat = s.pay.length →
      exec .writeOk s = .next { s with pktidx := s.pktidx + 1, pend := [], ph := .idle }) ∧
    (s.off.toNat ≠ s.pay.length →
      exec .writeOk s = .next { s with pktidx := s.pktidx + 1, pend := [], ph := .issue })

/-- 42_framer.md R155 with 60_exceptions.md R203: WRITE_ERR in WAIT enters the fault state with ERRC = WRITE_ERR and
writes PH, ERRC and PEND only, so PKTIDX names the failed packet. -/
def Obligations.WriteErrEntersTheFaultState : Prop :=
  ∀ s : State, s.ph = .wait →
    exec .writeErr s = .next { s with ph := .fault, errc := .writeErr, pend := [] }

/-- 30_encoding.md R71, R82 in the model's form of the CTRL_FIRST rows (log entry 12): where a command of the row's
opcode is about to issue its first packet, the row's event issues that packet, and it opens with the row's control
byte. -/
def Obligations.FirstPacketRowsIssueTheirControlByte : Prop :=
  ∀ (s : State) (n0 : Nat) (body : Bytes), s.ph = .issue → s.first = true →
    n0 = min s.pay.length (s.params.pktMax - s.hdr.length) → body = s.hdr ++ s.pay.take n0 →
    (s.op = 1 → exec .fillFirst s = .next { s with
      off := BitVec.ofNat 33 n0, first := false, pend := 0xC1 :: body, ph := .wait
      pktOut := s.pktOut ++ [0xC1 :: body] }) ∧
    (s.op = 2 → exec .imageFirst s = .next { s with
      off := BitVec.ofNat 33 n0, first := false, pend := 0xC2 :: body, ph := .wait
      pktOut := s.pktOut ++ [0xC2 :: body] }) ∧
    (s.op = 3 → exec .rectFirst s = .next { s with
      off := BitVec.ofNat 33 n0, first := false, pend := 0xC3 :: body, ph := .wait
      pktOut := s.pktOut ++ [0xC3 :: body] })

/-- 30_encoding.md R72, R83 in the model's form of the CTRL_CONT rows (log entry 12): where a command of the row's
opcode is about to issue a continuation packet, the row's event issues it, and it opens with the row's control byte.
For FILL no state reached from reset meets this (30_encoding.md section 7); the effect is stated all the same. -/
def Obligations.ContinuationRowsIssueTheirControlByte : Prop :=
  ∀ (s : State) (n : Nat) (body : Bytes), s.ph = .issue → s.first = false →
    n = min (s.pay.length - s.off.toNat) s.params.pktMax → body = (s.pay.drop s.off.toNat).take n →
    (s.op = 1 → exec .fillCont s = .next { s with
      off := s.off + BitVec.ofNat 33 n, pend := 0x01 :: body, ph := .wait, pktOut := s.pktOut ++ [0x01 :: body] }) ∧
    (s.op = 2 → exec .imageCont s = .next { s with
      off := s.off + BitVec.ofNat 33 n, pend := 0x02 :: body, ph := .wait, pktOut := s.pktOut ++ [0x02 :: body] }) ∧
    (s.op = 3 → exec .rectCont s = .next { s with
      off := s.off + BitVec.ofNat 33 n, pend := 0x03 :: body, ph := .wait, pktOut := s.pktOut ++ [0x03 :: body] })

/-- The model's choice for a move whose guard is false (log entry 1), from 42_framer.md R151, R163 and 60_exceptions.md
R207: nothing changes. -/
def Obligations.MovesWithFalseGuardsChangeNothing : Prop :=
  ∀ s : State,
    ((s.ph ≠ .idle ∨ s.cmdOffer = none) → exec .accept s = .next s) ∧
    ((s.ph ≠ .issue ∨ s.first = false) → exec .issueFirst s = .next s) ∧
    ((s.ph ≠ .issue ∨ s.first = true) → exec .issueCont s = .next s) ∧
    (s.ph ≠ .wait → exec .writeOk s = .next s ∧ exec .writeErr s = .next s) ∧
    ((s.ph ≠ .issue ∨ s.first = false ∨ s.op ≠ 1) → exec .fillFirst s = .next s) ∧
    ((s.ph ≠ .issue ∨ s.first = false ∨ s.op ≠ 2) → exec .imageFirst s = .next s) ∧
    ((s.ph ≠ .issue ∨ s.first = false ∨ s.op ≠ 3) → exec .rectFirst s = .next s) ∧
    ((s.ph ≠ .issue ∨ s.first = true ∨ s.op ≠ 1) → exec .fillCont s = .next s) ∧
    ((s.ph ≠ .issue ∨ s.first = true ∨ s.op ≠ 2) → exec .imageCont s = .next s) ∧
    ((s.ph ≠ .issue ∨ s.first = true ∨ s.op ≠ 3) → exec .rectCont s = .next s)

/-- 42_framer.md R165: in PH = ISSUE exactly one of the two ISSUE steps moves the CPE, and the CPE takes it by itself
where no event is scheduled; in PH = WAIT it stays (the schedule is the model's, log entries 2 and 14). -/
def Obligations.IssuePhaseAlwaysHasOneIssueMove : Prop :=
  ∀ s : State, s.params.Legal → s.inbox = [] →
    (s.ph = .issue → ∃ t : State, t.ph = .wait ∧ step s = .next t ∧
      (exec .issueFirst s = .next t ∧ exec .issueCont s = .next s ∨
        exec .issueFirst s = .next s ∧ exec .issueCont s = .next t)) ∧
    (s.ph = .wait → step s = .next s)

/-- 30_encoding.md R70 to R73: a first packet's control byte has START = 1, CLEAR = 1 and OPC = OP, a continuation's has
START = 0, CLEAR = 0 and OPC = OP. -/
def Obligations.ControlBytesCarryTheirThreeFields : Prop :=
  ∀ op : Opcode,
    ctrlStart (firstCtrl op) = true ∧ ctrlClear (firstCtrl op) = true ∧ ctrlOpc (firstCtrl op) = op ∧
    ctrlStart (contCtrl op) = false ∧ ctrlClear (contCtrl op) = false ∧ ctrlOpc (contCtrl op) = op

/-- 42_framer.md R159: how many packets a command has. It holds where the header fills the budget exactly, too. -/
def Obligations.FrameHasTheStatedPacketCount : Prop :=
  ∀ (M : Nat) (op : Opcode) (hdr pay : Bytes), 1 ≤ M → hdr.length ≤ M →
    (frame M op hdr pay).length = 1 + (pay.length - (M - hdr.length) + M - 1) / M

/-- 42_framer.md R158, R159: the packets of a command as a list by number: packet 0 is the first packet, and packet
k + 1 is a continuation at the offset that k + 1 packets reach. -/
def Obligations.FramePacketsStandAtTheirOffsets : Prop :=
  ∀ (M : Nat) (op : Opcode) (hdr pay : Bytes) (k : Nat), 1 ≤ M → hdr.length ≤ M →
    (frame M op hdr pay)[k]? =
      if k = 0 ∨ M - hdr.length + (k - 1) * M < pay.length then some (packetAt M op hdr pay k) else none

/-- 42_framer.md R162: no packet after the first is without payload, all but the last continuation carry exactly
PKT_MAX bytes, and where the remainder is an exact multiple of PKT_MAX the last one does too; where the first packet
carries the whole payload no continuation follows. -/
def Obligations.NoTrailingEmptyPacket : Prop :=
  ∀ (M : Nat) (op : Opcode) (hdr pay : Bytes), 1 ≤ M → hdr.length ≤ M →
    (∀ p ∈ (frame M op hdr pay).tail, 2 ≤ p.length) ∧
    (∀ (k : Nat) (p : Bytes), 1 ≤ k → k + 1 < (frame M op hdr pay).length → (frame M op hdr pay)[k]? = some p →
      p.length = 1 + M) ∧
    (M - hdr.length < pay.length → (pay.length - (M - hdr.length)) % M = 0 →
      ∃ p : Bytes, (frame M op hdr pay).getLast? = some p ∧ p.length = 1 + M) ∧
    (pay.length ≤ M - hdr.length → (frame M op hdr pay).length = 1)

/-- 42_framer.md R164: an accepted command is one packet exactly where its payload fits the first budget: every FILL,
RECT from PKT_MAX 11 on, IMAGE up to 2*w*h = PKT_MAX - 9. -/
def Obligations.ShortCommandsAreOnePacket : Prop :=
  ∀ (M : Nat) (c : CmdRecord) (op : Opcode) (hdr pay : Bytes) (geov : Bool), 9 ≤ M → M ≤ 63 →
    enc c = .ok op hdr pay geov →
    ((frame M op hdr pay).length = 1 ↔ pay.length ≤ M - hdr.length) ∧
    (c.kind = 1 → (frame M op hdr pay).length = 1) ∧
    (c.kind = 3 → ((frame M op hdr pay).length = 1 ↔ 11 ≤ M)) ∧
    (c.kind = 2 → ((frame M op hdr pay).length = 1 ↔ 2 * (c.body.a2.toNat * c.body.a3.toNat) ≤ M - 9))

/-- 42_framer.md R161: the control bytes taken off, the packets of a command give back its header and payload; and
Reassemble gives back every accepted command of a stream of whole commands. -/
def Obligations.ReassembleGivesBackTheCommands : Prop :=
  (∀ (M : Nat) (op : Opcode) (hdr pay : Bytes), 1 ≤ M → hdr.length ≤ M →
    (frame M op hdr pay).flatMap (List.drop 1) = hdr ++ pay) ∧
  ∀ (M : Nat) (rs : List Rebuilt), 9 ≤ M → M ≤ 63 →
    (∀ r ∈ rs, ∃ (c : CmdRecord) (geov : Bool), enc c = .ok r.op r.hdr r.pay geov) →
    reassemble (rs.flatMap fun r => frame M r.op r.hdr r.pay) = rs

/-- 20_memory.md R52, R57, 70_reset_and_hazards.md R234: an event presents a packet only in PH = ISSUE, one packet, the
one PEND then holds, and the CPE is in WAIT after it; every other event leaves the packets presented as they are; and
only an OK result leads from WAIT to the next ISSUE. -/
def Obligations.PacketsArePresentedOneAtATimeFromIssue : Prop :=
  ∀ (i : Instr) (s t : State), exec i s = .next t →
    ((t.pktOut = s.pktOut ∧ (t.ph = .wait → s.ph = .wait ∧ t.pend = s.pend)) ∨
      (s.ph = .issue ∧ t.ph = .wait ∧ t.pend ≠ [] ∧ t.pktOut = s.pktOut ++ [t.pend])) ∧
    (s.ph = .wait → t.ph = .issue → i = .writeOk)

/-- 42_framer.md R158: in every state of the invariant, a packet that an event presents is packet number PKTIDX of
Frame of the command in progress. -/
def Obligations.IssuedPacketIsTheFramePacketOfItsNumber : Prop :=
  ∀ (i : Instr) (s t : State), Inv s → exec i s = .next t →
    t.pktOut = s.pktOut ∨
    (t.pktOut = s.pktOut ++ [t.pend] ∧
      (frame s.params.pktMax s.op s.hdr s.pay)[s.pktidx.toNat]? = some t.pend)

/-- 42_framer.md R160: every packet that an event presents has 1 to PKT_MAX + 1 bytes, so at most 64. -/
def Obligations.EveryPacketHasAtMostPktMaxPlusOneBytes : Prop :=
  ∀ (i : Instr) (s t : State), Inv s → exec i s = .next t → ∀ p ∈ t.pktOut,
    p ∈ s.pktOut ∨ (1 ≤ p.length ∧ p.length ≤ s.params.pktMax + 1 ∧ p.length ≤ 64)

/-- 30_encoding.md R75 and section 7: the control bytes of the packets that events present in a state of the invariant:
never 0x01, and 0x03 only where PKT_MAX < 11. -/
def Obligations.OnlyTheListedControlBytesAreEmitted : Prop :=
  ∀ (i : Instr) (s t : State), Inv s → exec i s = .next t → ∀ p ∈ t.pktOut,
    p ∈ s.pktOut ∨ ∃ (c : Byte) (body : Bytes), p = c :: body ∧
      (c = 0xC1 ∨ c = 0xC2 ∨ c = 0xC3 ∨ c = 0x02 ∨ (c = 0x03 ∧ s.params.pktMax < 11))

/-- 42_framer.md R158, R159, R156: an accepted command whose every packet is answered OK presents exactly the packets of
Frame, in order, and then PH = IDLE with PKTIDX their number, every payload byte carried and no fault. -/
def Obligations.AcceptedCommandSendsExactlyItsFrame : Prop :=
  ∀ (s : State) (c : CmdRecord) (op : Opcode) (hdr pay : Bytes) (geov : Bool),
    s.params.Legal → s.ph = .idle → s.cmdOffer = some c → enc c = .ok op hdr pay geov →
    ∃ t : State,
      execAll (.accept :: sendEvents (packetCount s.params.pktMax hdr.length pay.length - 1)) s = .next t ∧
      t.ph = .idle ∧ t.pktOut = s.pktOut ++ frame s.params.pktMax op hdr pay ∧
      t.pktidx.toNat = (frame s.params.pktMax op hdr pay).length ∧ t.off.toNat = pay.length ∧
      t.pend = [] ∧ t.errc = .none ∧ t.geov = geov ∧ t.cmdl = c ∧ t.params = s.params ∧ t.qzOut = s.qzOut

/-- 42_framer.md R156, 20_memory.md R61: from a state of the invariant, an OK result ends the command exactly where it
is the answer to the last packet of Frame. -/
def Obligations.CommandEndsWithTheAnswerToItsLastPacket : Prop :=
  ∀ s t : State, Inv s → s.ph = .wait → exec .writeOk s = .next t →
    (t.ph = .idle ↔ t.pktidx.toNat = (frame s.params.pktMax s.op s.hdr s.pay).length)

/-! ## Faults -/

/-- 60_exceptions.md R206, R207: in PH = FAULT every event but RESET leaves the state as it is, but for a color returned
on QZ and an offer that waits on CMD (the model's fields, log entries 3 and 9). -/
def Obligations.OnlyResetLeavesTheFaultState : Prop :=
  ∀ (i : Instr) (s t : State), s.ph = .fault → i ≠ .reset → exec i s = .next t →
    t = { s with cmdOffer := t.cmdOffer, qzOut := t.qzOut }

/-- 60_exceptions.md R200, R201: the three faults and the only events that raise them: a fault begins in WAIT by
WRITE_ERR, or in IDLE by an event that accepts a record (its CMD transaction, or ACCEPT of the record on CMD) that the
encoder refuses with that code; CMDL then holds that record. -/
def Obligations.FaultsBeginOnlyWhereTheirCausesStand : Prop :=
  ∀ (i : Instr) (s t : State), exec i s = .next t → s.ph ≠ .fault → t.ph = .fault →
    (i = .writeErr ∧ s.ph = .wait ∧ t.errc = .writeErr ∧ t.pktidx = s.pktidx ∧ t.op = s.op ∧ t.first = s.first) ∨
    (s.ph = .idle ∧ ∃ c : CmdRecord, (instrRecord i = some c ∨ (i = .accept ∧ s.cmdOffer = some c)) ∧
      t.cmdl = c ∧ enc c = .bad t.errc ∧ (t.errc = .illegalKind ∨ t.errc = .pixLen) ∧ t.pktidx = 0 ∧
      t.pktOut = s.pktOut)

/-! ## Who writes what -/

/-- 10_state.md R24 to R27, R30: CMDL, OP, HDR, PAY and GEOV are written only by RESET and by an event that accepts a
record in PH = IDLE (its CMD transaction, or ACCEPT of the record on CMD), which puts that record in CMDL; where the
encoder refuses it, OP, HDR and PAY stay. -/
def Obligations.OnlyAcceptAndResetWriteTheLatchedCommand : Prop :=
  ∀ (i : Instr) (s t : State), exec i s = .next t →
    (t.cmdl = s.cmdl ∧ t.geov = s.geov ∧ t.op = s.op ∧ t.hdr = s.hdr ∧ t.pay = s.pay) ∨ i = .reset ∨
    (s.ph = .idle ∧ ∃ c : CmdRecord, (instrRecord i = some c ∨ (i = .accept ∧ s.cmdOffer = some c)) ∧
      t.cmdl = c ∧ t.pktidx = 0 ∧ (t.ph = .issue ∨ t.ph = .fault) ∧
      (t.ph = .issue → enc c = .ok t.op t.hdr t.pay t.geov) ∧
      (t.ph = .fault → t.geov = false ∧ t.op = s.op ∧ t.hdr = s.hdr ∧ t.pay = s.pay))

/-- 10_state.md R31: PKTIDX is set to 0 at accept (the event by which PH leaves IDLE), counts each OK result without
wrapping, is left alone by an ERR result, and by every other event but RESET. -/
def Obligations.PktidxCountsTheAnsweredPackets : Prop :=
  ∀ (i : Instr) (s t : State), Inv s → exec i s = .next t →
    (i = .writeOk → s.ph = .wait → t.pktidx.toNat = s.pktidx.toNat + 1) ∧
    (i = .writeErr → t.pktidx = s.pktidx) ∧
    (s.ph = .idle → t.ph = .issue ∨ t.ph = .fault → t.pktidx = 0) ∧
    (t.pktidx = s.pktidx ∨ (i = .writeOk ∧ s.ph = .wait) ∨ i = .reset ∨
      (s.ph = .idle ∧ t.ph ≠ .idle ∧ t.pktidx = 0))

/-- 10_state.md R23: OFF counts, without wrapping, the payload bytes the packets issued have carried, and never exceeds
len(PAY). -/
def Obligations.OffCountsTheCarriedPayloadBytes : Prop :=
  ∀ (i : Instr) (s t : State), Inv s → exec i s = .next t → t.ph = .wait → s.ph = .issue →
    t.off.toNat + 1 + (if s.first then s.hdr.length else 0) = s.off.toNat + t.pend.length ∧
    t.off.toNat ≤ t.pay.length ∧ t.pay.length < 2 ^ 33

/-- 10_state.md R33: CFG holds PKT_MAX, its bits 7:6 read 0, and no event changes it; nor does one change any
parameter (00_scope.md section 3). -/
def Obligations.CfgHoldsPktMaxAndNeverChanges : Prop :=
  ∀ s : State, s.params.Legal →
    (readCfg s).toNat = s.params.pktMax ∧ (readCfg s).extractLsb' 6 2 = 0 ∧
    ∀ (i : Instr) (t : State), exec i s = .next t → t.params = s.params ∧ readCfg t = readCfg s

/-- 10_state.md R32: the fields of STATUS. -/
def Obligations.StatusShowsPhaseFirstErrcAndGeov : Prop :=
  ∀ s : State,
    (readStatus s).extractLsb' 0 2 =
      (match s.ph with | .idle => 0#2 | .issue => 1#2 | .wait => 2#2 | .fault => 3#2) ∧
    (readStatus s).getLsbD 2 = s.first ∧
    (readStatus s).extractLsb' 3 3 =
      (match s.errc with | .none => 0#3 | .writeErr => 1#3 | .illegalKind => 2#3 | .pixLen => 3#3) ∧
    (readStatus s).getLsbD 6 = s.geov ∧
    (readStatus s).extractLsb' 7 9 = 0

/-! ## Quantizer -/

/-- 40_quantizer.md R102 and R106 with R100: PACK565 returns one and the same color in every state, with the three clamped
channels in its fields, and touches nothing else (qzOut is the model's record of the colors returned, log entry 9). -/
def Obligations.Pack565ReturnsTheClampedChannels : Prop :=
  ∀ r g b : ChannelValue, ∃ c : Color,
    (c.extractLsb' 0 5).toNat = min r.toNat 31 ∧ (c.extractLsb' 5 6).toNat = min g.toNat 63 ∧
    (c.extractLsb' 11 5).toNat = min b.toNat 31 ∧
    ∀ s : State, exec (.pack565 r g b) s = .next { s with qzOut := s.qzOut ++ [c] }

/-- 40_quantizer.md R103 with R100: PACK555 returns one and the same color in every state, with red and blue clamped and
green doubled and then clamped, and touches nothing else (qzOut as in log entry 9). It is the color of PACK565 with
twice the green. -/
def Obligations.Pack555ReturnsTheDoubledGreen : Prop :=
  ∀ r g b : ChannelValue, ∃ c : Color,
    (c.extractLsb' 0 5).toNat = min r.toNat 31 ∧ (c.extractLsb' 5 6).toNat = min (2 * g.toNat) 63 ∧
    (c.extractLsb' 11 5).toNat = min b.toNat 31 ∧ c = pack565Color r.toNat (2 * g.toNat) b.toNat ∧
    ∀ s : State, exec (.pack555 r g b) s = .next { s with qzOut := s.qzOut ++ [c] }

/-- 10_state.md R37, 40_quantizer.md R100: no event but a quantizer evaluation returns a color, and every other event's
effect is the same whatever colors have been returned before. -/
def Obligations.QuantizerAndFramerDoNotInfluenceEachOther : Prop :=
  ∀ (i : Instr) (s t : State) (cs : List Color), (∀ r g b, i ≠ .pack565 r g b ∧ i ≠ .pack555 r g b) →
    exec i s = .next t →
    t.qzOut = s.qzOut ∧ exec i { s with qzOut := cs } = .next { t with qzOut := cs }

/-! ## The step -/

/-- A step runs the event that its schedule's first word decodes to, on the state without that word (the schedule is the
model's, log entry 2). -/
def Obligations.StepRunsTheDecodedEvent : Prop :=
  ∀ (s : State) (w : EventWord) (rest : List EventWord) (i : Instr),
    s.params.Legal → s.inbox = w :: rest → decode s.params w = .ok i →
    step s = exec i { s with inbox := rest }

/-- A step refuses an instance whose parameters are out of range (00_scope.md R5, R6, 70_reset_and_hazards.md R236), such
an instance is never built, and a word the decoder rejects is refused with the decoder's reason (log entries 10, 18). -/
def Obligations.IllegalInstancesAndWordsAreRefused : Prop :=
  (∀ s : State, ¬ s.params.Legal → step s = .refused .illegalInstance) ∧
  (∀ pktMax chW : Nat, (Params.build pktMax chW).isSome ↔ (9 ≤ pktMax ∧ pktMax ≤ 63) ∧ (1 ≤ chW ∧ chW ≤ 32)) ∧
  (∀ (s : State) (w : EventWord) (rest : List EventWord) (e : DecodeError),
    s.params.Legal → s.inbox = w :: rest → decode s.params w = .error e → step s = .refused (.undecodable e))

/-- The CPE's own move where nothing is scheduled (log entries 2 and 14): the waiting offer is accepted in IDLE, and
FAULT stays. -/
def Obligations.IdleCpeAcceptsAWaitingOffer : Prop :=
  ∀ s : State, s.params.Legal → s.inbox = [] →
    (s.ph = .idle → step s = exec .accept s) ∧ (s.ph = .fault → step s = .next s)

/-! ## The invariant -/

/-- The invariant holds after reset. -/
def Obligations.ResetStateMeetsTheInvariant : Prop := Inv State.reset

/-- Every step from a state of the invariant leads to a state of the invariant. -/
def Obligations.EveryStepKeepsTheInvariant : Prop :=
  ∀ s t : State, Inv s → step s = .next t → Inv t

/-- 10_state.md R35: the invariant gives the items the spec states. -/
def Obligations.InvariantGivesTheStatedItems : Prop :=
  ∀ s : State, Inv s → StatedInv s

/-- 42_framer.md R166: in a good end of the invariant no packet is outstanding, no fault is recorded and the whole
payload of the last command has been carried; a faulted end records its fault and is no good end. -/
def Obligations.GoodEndsLeaveNothingOutstanding : Prop :=
  ∀ s : State, Inv s →
    (GoodEnd s → s.pend = [] ∧ s.errc = .none ∧ s.off.toNat = s.pay.length ∧ ¬ FaultedEnd s) ∧
    (FaultedEnd s → s.pend = [] ∧ s.errc ≠ .none ∧ ¬ GoodEnd s)

/-! ## Encoding -/

/-- Decoding the encoding of a well-formed instruction gives it back, for every legal instance and every operand. -/
def Obligations.DecodeOfEncodeIsTheInstruction : Prop :=
  ∀ (p : Params) (i : Instr), p.Legal → i.wf p = true → decode p (encode p i) = .ok i

/-- What the decoder reads is well formed, and encoding it gives the word back: no bit of a word is dropped. -/
def Obligations.EncodeOfDecodeIsTheWord : Prop :=
  ∀ (p : Params) (w : EventWord) (i : Instr), p.Legal → decode p w = .ok i → i.wf p = true ∧ encode p i = w

/-- Words written out from the spec's encodings (30_encoding.md R71, R72, R85, R87): the control bytes, a FILL and a
RECT record, and quantizer words. The record's and the quantizer's byte form is the model's (log entry 4). -/
def Obligations.WrittenOutWordsDecode : Prop :=
  decode Params.default { format := .ctrl, bytes := [0b11000001] } = .ok .fillFirst ∧
  decode Params.default { format := .ctrl, bytes := [0b11000010] } = .ok .imageFirst ∧
  decode Params.default { format := .ctrl, bytes := [0b11000011] } = .ok .rectFirst ∧
  decode Params.default { format := .ctrl, bytes := [0b00000010] } = .ok .imageCont ∧
  decode Params.default
    { format := .cmdRecord, bytes := [0b000001, 0, 0, 0, 0, 0, 0, 0, 0, 0x34, 0x12, 0] } = .ok (fillCall 0x1234) ∧
  decode Params.default
    { format := .cmdRecord, bytes := [0b000011, 2, 1, 4, 3, 0x10, 0, 0x20, 0, 0x41, 0x18, 1] } =
      .ok (rectCall 0x0102 0x0304 0x0010 0x0020 0x1841 1) ∧
  decode Params.default { format := .qz, bytes := [0x3E, 0x7E, 0x3E, 0] } = .ok (.pack565 31 63 31) ∧
  decode Params.default { format := .step, bytes := [5] } = .ok .reset

/-- 30_encoding.md R75, section 7: the control bytes the decoder takes are the six the table names, and no other. -/
def Obligations.NoOtherControlByteDecodes : Prop :=
  ∀ (p : Params) (b : Byte),
    (∃ i, decode p { format := .ctrl, bytes := [b] } = .ok i) ↔
      b = 0xC1 ∨ b = 0xC2 ∨ b = 0xC3 ∨ b = 0x01 ∨ b = 0x02 ∨ b = 0x03
end

