-- ==== Sys2Proof/Laws/Decode.lean ====
section
/-! SUPPORT. Small lemmas of the decoder's and the encoder's pieces. -/

namespace Sys2Proof

@[simp] theorem joinBytes_split (v : BitVec 16) : joinBytes (loByte v) (hiByte v) = v := by
  have h : ∀ u : BitVec 16, (u.extractLsb' 8 8 ++ u.extractLsb' 0 8 : BitVec 16) = u := by
    intro u
    rw [BitVec.extractLsb'_append_extractLsb'_eq_extractLsb' (by rfl)]
    exact BitVec.extractLsb'_eq_self
  exact h v

@[simp] theorem loByte_join (lo hi : Byte) : loByte (joinBytes lo hi) = lo :=
  BitVec.extractLsb'_append_eq_right

@[simp] theorem hiByte_join (lo hi : Byte) : hiByte (joinBytes lo hi) = hi :=
  BitVec.extractLsb'_append_eq_left

@[simp] theorem pixelsOf_pixelBytes (ps : List Color) : pixelsOf (pixelBytes ps) = some ps := by
  induction ps with
  | nil => rfl
  | cons c cs ih => simp [pixelBytes, pixelsOf, ih]

@[simp] theorem natBytes_length (n v : Nat) : (natBytes n v).length = n := by
  induction n generalizing v with
  | zero => rfl
  | succ n ih => simp [natBytes, ih]

/-- Reading back the bytes of a number gives its value in that many bytes. -/
theorem bytesNat_natBytes (n v : Nat) : bytesNat (natBytes n v) = v % 256 ^ n := by
  induction n generalizing v with
  | zero => simp [natBytes, bytesNat, Nat.mod_one]
  | succ n ih =>
    simp only [natBytes, bytesNat, ih, BitVec.toNat_ofNat]
    rw [show 256 ^ (n + 1) = 256 * 256 ^ n by rw [Nat.pow_succ, Nat.mul_comm], Nat.mod_mul]

end Sys2Proof
end

