-- ==== Sys2Proof/Laws/State.lean ====
section
/-! SUPPORT. One lemma per field per update of the state, true by rfl. -/

namespace Sys2Proof.Machine

open Sys2Proof

@[simp] theorem raiseFault_ph (code : ErrCode) (s : State) : (raiseFault code s).ph = .fault := rfl
@[simp] theorem raiseFault_first (code : ErrCode) (s : State) : (raiseFault code s).first = s.first := rfl
@[simp] theorem raiseFault_op (code : ErrCode) (s : State) : (raiseFault code s).op = s.op := rfl
@[simp] theorem raiseFault_hdr (code : ErrCode) (s : State) : (raiseFault code s).hdr = s.hdr := rfl
@[simp] theorem raiseFault_pay (code : ErrCode) (s : State) : (raiseFault code s).pay = s.pay := rfl
@[simp] theorem raiseFault_off (code : ErrCode) (s : State) : (raiseFault code s).off = s.off := rfl
@[simp] theorem raiseFault_pend (code : ErrCode) (s : State) : (raiseFault code s).pend = [] := rfl
@[simp] theorem raiseFault_errc (code : ErrCode) (s : State) : (raiseFault code s).errc = code := rfl
@[simp] theorem raiseFault_cmdl (code : ErrCode) (s : State) : (raiseFault code s).cmdl = s.cmdl := rfl
@[simp] theorem raiseFault_geov (code : ErrCode) (s : State) : (raiseFault code s).geov = s.geov := rfl
@[simp] theorem raiseFault_pktidx (code : ErrCode) (s : State) : (raiseFault code s).pktidx = s.pktidx := rfl
@[simp] theorem raiseFault_params (code : ErrCode) (s : State) : (raiseFault code s).params = s.params := rfl
@[simp] theorem raiseFault_cmdOffer (code : ErrCode) (s : State) : (raiseFault code s).cmdOffer = s.cmdOffer := rfl
@[simp] theorem raiseFault_pktOut (code : ErrCode) (s : State) : (raiseFault code s).pktOut = s.pktOut := rfl
@[simp] theorem raiseFault_qzOut (code : ErrCode) (s : State) : (raiseFault code s).qzOut = s.qzOut := rfl
@[simp] theorem raiseFault_inbox (code : ErrCode) (s : State) : (raiseFault code s).inbox = s.inbox := rfl
@[simp] theorem raiseFault_freeIdx (code : ErrCode) (s : State) : (raiseFault code s).freeIdx = s.freeIdx := rfl

@[simp] theorem latchOk_ph (c : CmdRecord) (op : Opcode) (hdr pay : Bytes) (g : Bool) (s : State) : (latchOk c op hdr pay g s).ph = .issue := rfl
@[simp] theorem latchOk_first (c : CmdRecord) (op : Opcode) (hdr pay : Bytes) (g : Bool) (s : State) : (latchOk c op hdr pay g s).first = true := rfl
@[simp] theorem latchOk_op (c : CmdRecord) (op : Opcode) (hdr pay : Bytes) (g : Bool) (s : State) : (latchOk c op hdr pay g s).op = op := rfl
@[simp] theorem latchOk_hdr (c : CmdRecord) (op : Opcode) (hdr pay : Bytes) (g : Bool) (s : State) : (latchOk c op hdr pay g s).hdr = hdr := rfl
@[simp] theorem latchOk_pay (c : CmdRecord) (op : Opcode) (hdr pay : Bytes) (g : Bool) (s : State) : (latchOk c op hdr pay g s).pay = pay := rfl
@[simp] theorem latchOk_off (c : CmdRecord) (op : Opcode) (hdr pay : Bytes) (g : Bool) (s : State) : (latchOk c op hdr pay g s).off = 0 := rfl
@[simp] theorem latchOk_pend (c : CmdRecord) (op : Opcode) (hdr pay : Bytes) (g : Bool) (s : State) : (latchOk c op hdr pay g s).pend = s.pend := rfl
@[simp] theorem latchOk_errc (c : CmdRecord) (op : Opcode) (hdr pay : Bytes) (g : Bool) (s : State) : (latchOk c op hdr pay g s).errc = .none := rfl
@[simp] theorem latchOk_cmdl (c : CmdRecord) (op : Opcode) (hdr pay : Bytes) (g : Bool) (s : State) : (latchOk c op hdr pay g s).cmdl = c := rfl
@[simp] theorem latchOk_geov (c : CmdRecord) (op : Opcode) (hdr pay : Bytes) (g : Bool) (s : State) : (latchOk c op hdr pay g s).geov = g := rfl
@[simp] theorem latchOk_pktidx (c : CmdRecord) (op : Opcode) (hdr pay : Bytes) (g : Bool) (s : State) : (latchOk c op hdr pay g s).pktidx = 0 := rfl
@[simp] theorem latchOk_params (c : CmdRecord) (op : Opcode) (hdr pay : Bytes) (g : Bool) (s : State) : (latchOk c op hdr pay g s).params = s.params := rfl
@[simp] theorem latchOk_cmdOffer (c : CmdRecord) (op : Opcode) (hdr pay : Bytes) (g : Bool) (s : State) : (latchOk c op hdr pay g s).cmdOffer = s.cmdOffer := rfl
@[simp] theorem latchOk_pktOut (c : CmdRecord) (op : Opcode) (hdr pay : Bytes) (g : Bool) (s : State) : (latchOk c op hdr pay g s).pktOut = s.pktOut := rfl
@[simp] theorem latchOk_qzOut (c : CmdRecord) (op : Opcode) (hdr pay : Bytes) (g : Bool) (s : State) : (latchOk c op hdr pay g s).qzOut = s.qzOut := rfl
@[simp] theorem latchOk_inbox (c : CmdRecord) (op : Opcode) (hdr pay : Bytes) (g : Bool) (s : State) : (latchOk c op hdr pay g s).inbox = s.inbox := rfl
@[simp] theorem latchOk_freeIdx (c : CmdRecord) (op : Opcode) (hdr pay : Bytes) (g : Bool) (s : State) : (latchOk c op hdr pay g s).freeIdx = s.freeIdx := rfl

@[simp] theorem latchBad_ph (c : CmdRecord) (code : ErrCode) (s : State) : (latchBad c code s).ph = .fault := rfl
@[simp] theorem latchBad_first (c : CmdRecord) (code : ErrCode) (s : State) : (latchBad c code s).first = s.first := rfl
@[simp] theorem latchBad_op (c : CmdRecord) (code : ErrCode) (s : State) : (latchBad c code s).op = s.op := rfl
@[simp] theorem latchBad_hdr (c : CmdRecord) (code : ErrCode) (s : State) : (latchBad c code s).hdr = s.hdr := rfl
@[simp] theorem latchBad_pay (c : CmdRecord) (code : ErrCode) (s : State) : (latchBad c code s).pay = s.pay := rfl
@[simp] theorem latchBad_off (c : CmdRecord) (code : ErrCode) (s : State) : (latchBad c code s).off = s.off := rfl
@[simp] theorem latchBad_pend (c : CmdRecord) (code : ErrCode) (s : State) : (latchBad c code s).pend = [] := rfl
@[simp] theorem latchBad_errc (c : CmdRecord) (code : ErrCode) (s : State) : (latchBad c code s).errc = code := rfl
@[simp] theorem latchBad_cmdl (c : CmdRecord) (code : ErrCode) (s : State) : (latchBad c code s).cmdl = c := rfl
@[simp] theorem latchBad_geov (c : CmdRecord) (code : ErrCode) (s : State) : (latchBad c code s).geov = false := rfl
@[simp] theorem latchBad_pktidx (c : CmdRecord) (code : ErrCode) (s : State) : (latchBad c code s).pktidx = 0 := rfl
@[simp] theorem latchBad_params (c : CmdRecord) (code : ErrCode) (s : State) : (latchBad c code s).params = s.params := rfl
@[simp] theorem latchBad_cmdOffer (c : CmdRecord) (code : ErrCode) (s : State) : (latchBad c code s).cmdOffer = s.cmdOffer := rfl
@[simp] theorem latchBad_pktOut (c : CmdRecord) (code : ErrCode) (s : State) : (latchBad c code s).pktOut = s.pktOut := rfl
@[simp] theorem latchBad_qzOut (c : CmdRecord) (code : ErrCode) (s : State) : (latchBad c code s).qzOut = s.qzOut := rfl
@[simp] theorem latchBad_inbox (c : CmdRecord) (code : ErrCode) (s : State) : (latchBad c code s).inbox = s.inbox := rfl
@[simp] theorem latchBad_freeIdx (c : CmdRecord) (code : ErrCode) (s : State) : (latchBad c code s).freeIdx = s.freeIdx := rfl

@[simp] theorem standOffer_ph (c : CmdRecord) (s : State) : (standOffer c s).ph = s.ph := rfl
@[simp] theorem standOffer_first (c : CmdRecord) (s : State) : (standOffer c s).first = s.first := rfl
@[simp] theorem standOffer_op (c : CmdRecord) (s : State) : (standOffer c s).op = s.op := rfl
@[simp] theorem standOffer_hdr (c : CmdRecord) (s : State) : (standOffer c s).hdr = s.hdr := rfl
@[simp] theorem standOffer_pay (c : CmdRecord) (s : State) : (standOffer c s).pay = s.pay := rfl
@[simp] theorem standOffer_off (c : CmdRecord) (s : State) : (standOffer c s).off = s.off := rfl
@[simp] theorem standOffer_pend (c : CmdRecord) (s : State) : (standOffer c s).pend = s.pend := rfl
@[simp] theorem standOffer_errc (c : CmdRecord) (s : State) : (standOffer c s).errc = s.errc := rfl
@[simp] theorem standOffer_cmdl (c : CmdRecord) (s : State) : (standOffer c s).cmdl = s.cmdl := rfl
@[simp] theorem standOffer_geov (c : CmdRecord) (s : State) : (standOffer c s).geov = s.geov := rfl
@[simp] theorem standOffer_pktidx (c : CmdRecord) (s : State) : (standOffer c s).pktidx = s.pktidx := rfl
@[simp] theorem standOffer_params (c : CmdRecord) (s : State) : (standOffer c s).params = s.params := rfl
@[simp] theorem standOffer_cmdOffer (c : CmdRecord) (s : State) : (standOffer c s).cmdOffer = some c := rfl
@[simp] theorem standOffer_pktOut (c : CmdRecord) (s : State) : (standOffer c s).pktOut = s.pktOut := rfl
@[simp] theorem standOffer_qzOut (c : CmdRecord) (s : State) : (standOffer c s).qzOut = s.qzOut := rfl
@[simp] theorem standOffer_inbox (c : CmdRecord) (s : State) : (standOffer c s).inbox = s.inbox := rfl
@[simp] theorem standOffer_freeIdx (c : CmdRecord) (s : State) : (standOffer c s).freeIdx = s.freeIdx := rfl

@[simp] theorem takeOffer_ph (s : State) : (takeOffer s).ph = s.ph := rfl
@[simp] theorem takeOffer_first (s : State) : (takeOffer s).first = s.first := rfl
@[simp] theorem takeOffer_op (s : State) : (takeOffer s).op = s.op := rfl
@[simp] theorem takeOffer_hdr (s : State) : (takeOffer s).hdr = s.hdr := rfl
@[simp] theorem takeOffer_pay (s : State) : (takeOffer s).pay = s.pay := rfl
@[simp] theorem takeOffer_off (s : State) : (takeOffer s).off = s.off := rfl
@[simp] theorem takeOffer_pend (s : State) : (takeOffer s).pend = s.pend := rfl
@[simp] theorem takeOffer_errc (s : State) : (takeOffer s).errc = s.errc := rfl
@[simp] theorem takeOffer_cmdl (s : State) : (takeOffer s).cmdl = s.cmdl := rfl
@[simp] theorem takeOffer_geov (s : State) : (takeOffer s).geov = s.geov := rfl
@[simp] theorem takeOffer_pktidx (s : State) : (takeOffer s).pktidx = s.pktidx := rfl
@[simp] theorem takeOffer_params (s : State) : (takeOffer s).params = s.params := rfl
@[simp] theorem takeOffer_cmdOffer (s : State) : (takeOffer s).cmdOffer = none := rfl
@[simp] theorem takeOffer_pktOut (s : State) : (takeOffer s).pktOut = s.pktOut := rfl
@[simp] theorem takeOffer_qzOut (s : State) : (takeOffer s).qzOut = s.qzOut := rfl
@[simp] theorem takeOffer_inbox (s : State) : (takeOffer s).inbox = s.inbox := rfl
@[simp] theorem takeOffer_freeIdx (s : State) : (takeOffer s).freeIdx = s.freeIdx := rfl

@[simp] theorem presentPacket_ph (p : Bytes) (n : BitVec 33) (s : State) : (presentPacket p n s).ph = .wait := rfl
@[simp] theorem presentPacket_first (p : Bytes) (n : BitVec 33) (s : State) : (presentPacket p n s).first = false := rfl
@[simp] theorem presentPacket_op (p : Bytes) (n : BitVec 33) (s : State) : (presentPacket p n s).op = s.op := rfl
@[simp] theorem presentPacket_hdr (p : Bytes) (n : BitVec 33) (s : State) : (presentPacket p n s).hdr = s.hdr := rfl
@[simp] theorem presentPacket_pay (p : Bytes) (n : BitVec 33) (s : State) : (presentPacket p n s).pay = s.pay := rfl
@[simp] theorem presentPacket_off (p : Bytes) (n : BitVec 33) (s : State) : (presentPacket p n s).off = n := rfl
@[simp] theorem presentPacket_pend (p : Bytes) (n : BitVec 33) (s : State) : (presentPacket p n s).pend = p := rfl
@[simp] theorem presentPacket_errc (p : Bytes) (n : BitVec 33) (s : State) : (presentPacket p n s).errc = s.errc := rfl
@[simp] theorem presentPacket_cmdl (p : Bytes) (n : BitVec 33) (s : State) : (presentPacket p n s).cmdl = s.cmdl := rfl
@[simp] theorem presentPacket_geov (p : Bytes) (n : BitVec 33) (s : State) : (presentPacket p n s).geov = s.geov := rfl
@[simp] theorem presentPacket_pktidx (p : Bytes) (n : BitVec 33) (s : State) : (presentPacket p n s).pktidx = s.pktidx := rfl
@[simp] theorem presentPacket_params (p : Bytes) (n : BitVec 33) (s : State) : (presentPacket p n s).params = s.params := rfl
@[simp] theorem presentPacket_cmdOffer (p : Bytes) (n : BitVec 33) (s : State) : (presentPacket p n s).cmdOffer = s.cmdOffer := rfl
@[simp] theorem presentPacket_pktOut (p : Bytes) (n : BitVec 33) (s : State) : (presentPacket p n s).pktOut = s.pktOut ++ [p] := rfl
@[simp] theorem presentPacket_qzOut (p : Bytes) (n : BitVec 33) (s : State) : (presentPacket p n s).qzOut = s.qzOut := rfl
@[simp] theorem presentPacket_inbox (p : Bytes) (n : BitVec 33) (s : State) : (presentPacket p n s).inbox = s.inbox := rfl
@[simp] theorem presentPacket_freeIdx (p : Bytes) (n : BitVec 33) (s : State) : (presentPacket p n s).freeIdx = s.freeIdx := rfl

@[simp] theorem answerOk_ph (s : State) : (answerOk s).ph = phaseAfterOk s := rfl
@[simp] theorem answerOk_first (s : State) : (answerOk s).first = s.first := rfl
@[simp] theorem answerOk_op (s : State) : (answerOk s).op = s.op := rfl
@[simp] theorem answerOk_hdr (s : State) : (answerOk s).hdr = s.hdr := rfl
@[simp] theorem answerOk_pay (s : State) : (answerOk s).pay = s.pay := rfl
@[simp] theorem answerOk_off (s : State) : (answerOk s).off = s.off := rfl
@[simp] theorem answerOk_pend (s : State) : (answerOk s).pend = [] := rfl
@[simp] theorem answerOk_errc (s : State) : (answerOk s).errc = s.errc := rfl
@[simp] theorem answerOk_cmdl (s : State) : (answerOk s).cmdl = s.cmdl := rfl
@[simp] theorem answerOk_geov (s : State) : (answerOk s).geov = s.geov := rfl
@[simp] theorem answerOk_pktidx (s : State) : (answerOk s).pktidx = s.pktidx + 1 := rfl
@[simp] theorem answerOk_params (s : State) : (answerOk s).params = s.params := rfl
@[simp] theorem answerOk_cmdOffer (s : State) : (answerOk s).cmdOffer = s.cmdOffer := rfl
@[simp] theorem answerOk_pktOut (s : State) : (answerOk s).pktOut = s.pktOut := rfl
@[simp] theorem answerOk_qzOut (s : State) : (answerOk s).qzOut = s.qzOut := rfl
@[simp] theorem answerOk_inbox (s : State) : (answerOk s).inbox = s.inbox := rfl
@[simp] theorem answerOk_freeIdx (s : State) : (answerOk s).freeIdx = s.freeIdx := rfl

@[simp] theorem answerErr_ph (s : State) : (answerErr s).ph = .fault := rfl
@[simp] theorem answerErr_first (s : State) : (answerErr s).first = s.first := rfl
@[simp] theorem answerErr_op (s : State) : (answerErr s).op = s.op := rfl
@[simp] theorem answerErr_hdr (s : State) : (answerErr s).hdr = s.hdr := rfl
@[simp] theorem answerErr_pay (s : State) : (answerErr s).pay = s.pay := rfl
@[simp] theorem answerErr_off (s : State) : (answerErr s).off = s.off := rfl
@[simp] theorem answerErr_pend (s : State) : (answerErr s).pend = [] := rfl
@[simp] theorem answerErr_errc (s : State) : (answerErr s).errc = .writeErr := rfl
@[simp] theorem answerErr_cmdl (s : State) : (answerErr s).cmdl = s.cmdl := rfl
@[simp] theorem answerErr_geov (s : State) : (answerErr s).geov = s.geov := rfl
@[simp] theorem answerErr_pktidx (s : State) : (answerErr s).pktidx = s.pktidx := rfl
@[simp] theorem answerErr_params (s : State) : (answerErr s).params = s.params := rfl
@[simp] theorem answerErr_cmdOffer (s : State) : (answerErr s).cmdOffer = s.cmdOffer := rfl
@[simp] theorem answerErr_pktOut (s : State) : (answerErr s).pktOut = s.pktOut := rfl
@[simp] theorem answerErr_qzOut (s : State) : (answerErr s).qzOut = s.qzOut := rfl
@[simp] theorem answerErr_inbox (s : State) : (answerErr s).inbox = s.inbox := rfl
@[simp] theorem answerErr_freeIdx (s : State) : (answerErr s).freeIdx = s.freeIdx := rfl

@[simp] theorem returnColor_ph (c : Color) (s : State) : (returnColor c s).ph = s.ph := rfl
@[simp] theorem returnColor_first (c : Color) (s : State) : (returnColor c s).first = s.first := rfl
@[simp] theorem returnColor_op (c : Color) (s : State) : (returnColor c s).op = s.op := rfl
@[simp] theorem returnColor_hdr (c : Color) (s : State) : (returnColor c s).hdr = s.hdr := rfl
@[simp] theorem returnColor_pay (c : Color) (s : State) : (returnColor c s).pay = s.pay := rfl
@[simp] theorem returnColor_off (c : Color) (s : State) : (returnColor c s).off = s.off := rfl
@[simp] theorem returnColor_pend (c : Color) (s : State) : (returnColor c s).pend = s.pend := rfl
@[simp] theorem returnColor_errc (c : Color) (s : State) : (returnColor c s).errc = s.errc := rfl
@[simp] theorem returnColor_cmdl (c : Color) (s : State) : (returnColor c s).cmdl = s.cmdl := rfl
@[simp] theorem returnColor_geov (c : Color) (s : State) : (returnColor c s).geov = s.geov := rfl
@[simp] theorem returnColor_pktidx (c : Color) (s : State) : (returnColor c s).pktidx = s.pktidx := rfl
@[simp] theorem returnColor_params (c : Color) (s : State) : (returnColor c s).params = s.params := rfl
@[simp] theorem returnColor_cmdOffer (c : Color) (s : State) : (returnColor c s).cmdOffer = s.cmdOffer := rfl
@[simp] theorem returnColor_pktOut (c : Color) (s : State) : (returnColor c s).pktOut = s.pktOut := rfl
@[simp] theorem returnColor_qzOut (c : Color) (s : State) : (returnColor c s).qzOut = s.qzOut ++ [c] := rfl
@[simp] theorem returnColor_inbox (c : Color) (s : State) : (returnColor c s).inbox = s.inbox := rfl
@[simp] theorem returnColor_freeIdx (c : Color) (s : State) : (returnColor c s).freeIdx = s.freeIdx := rfl

@[simp] theorem resetElements_ph (s : State) : (resetElements s).ph = .idle := rfl
@[simp] theorem resetElements_first (s : State) : (resetElements s).first = false := rfl
@[simp] theorem resetElements_op (s : State) : (resetElements s).op = 0 := rfl
@[simp] theorem resetElements_hdr (s : State) : (resetElements s).hdr = [] := rfl
@[simp] theorem resetElements_pay (s : State) : (resetElements s).pay = [] := rfl
@[simp] theorem resetElements_off (s : State) : (resetElements s).off = 0 := rfl
@[simp] theorem resetElements_pend (s : State) : (resetElements s).pend = [] := rfl
@[simp] theorem resetElements_errc (s : State) : (resetElements s).errc = .none := rfl
@[simp] theorem resetElements_cmdl (s : State) : (resetElements s).cmdl = Config.freeCmdl s.freeIdx := rfl
@[simp] theorem resetElements_geov (s : State) : (resetElements s).geov = false := rfl
@[simp] theorem resetElements_pktidx (s : State) : (resetElements s).pktidx = 0 := rfl
@[simp] theorem resetElements_params (s : State) : (resetElements s).params = s.params := rfl
@[simp] theorem resetElements_cmdOffer (s : State) : (resetElements s).cmdOffer = s.cmdOffer := rfl
@[simp] theorem resetElements_pktOut (s : State) : (resetElements s).pktOut = s.pktOut := rfl
@[simp] theorem resetElements_qzOut (s : State) : (resetElements s).qzOut = s.qzOut := rfl
@[simp] theorem resetElements_inbox (s : State) : (resetElements s).inbox = s.inbox := rfl
@[simp] theorem resetElements_freeIdx (s : State) : (resetElements s).freeIdx = s.freeIdx + 1 := rfl

@[simp] theorem popEvent_ph (s : State) : (popEvent s).ph = s.ph := rfl
@[simp] theorem popEvent_first (s : State) : (popEvent s).first = s.first := rfl
@[simp] theorem popEvent_op (s : State) : (popEvent s).op = s.op := rfl
@[simp] theorem popEvent_hdr (s : State) : (popEvent s).hdr = s.hdr := rfl
@[simp] theorem popEvent_pay (s : State) : (popEvent s).pay = s.pay := rfl
@[simp] theorem popEvent_off (s : State) : (popEvent s).off = s.off := rfl
@[simp] theorem popEvent_pend (s : State) : (popEvent s).pend = s.pend := rfl
@[simp] theorem popEvent_errc (s : State) : (popEvent s).errc = s.errc := rfl
@[simp] theorem popEvent_cmdl (s : State) : (popEvent s).cmdl = s.cmdl := rfl
@[simp] theorem popEvent_geov (s : State) : (popEvent s).geov = s.geov := rfl
@[simp] theorem popEvent_pktidx (s : State) : (popEvent s).pktidx = s.pktidx := rfl
@[simp] theorem popEvent_params (s : State) : (popEvent s).params = s.params := rfl
@[simp] theorem popEvent_cmdOffer (s : State) : (popEvent s).cmdOffer = s.cmdOffer := rfl
@[simp] theorem popEvent_pktOut (s : State) : (popEvent s).pktOut = s.pktOut := rfl
@[simp] theorem popEvent_qzOut (s : State) : (popEvent s).qzOut = s.qzOut := rfl
@[simp] theorem popEvent_inbox (s : State) : (popEvent s).inbox = s.inbox.tail := rfl
@[simp] theorem popEvent_freeIdx (s : State) : (popEvent s).freeIdx = s.freeIdx := rfl

@[simp] theorem pushEvent_ph (w : EventWord) (s : State) : (pushEvent w s).ph = s.ph := rfl
@[simp] theorem pushEvent_first (w : EventWord) (s : State) : (pushEvent w s).first = s.first := rfl
@[simp] theorem pushEvent_op (w : EventWord) (s : State) : (pushEvent w s).op = s.op := rfl
@[simp] theorem pushEvent_hdr (w : EventWord) (s : State) : (pushEvent w s).hdr = s.hdr := rfl
@[simp] theorem pushEvent_pay (w : EventWord) (s : State) : (pushEvent w s).pay = s.pay := rfl
@[simp] theorem pushEvent_off (w : EventWord) (s : State) : (pushEvent w s).off = s.off := rfl
@[simp] theorem pushEvent_pend (w : EventWord) (s : State) : (pushEvent w s).pend = s.pend := rfl
@[simp] theorem pushEvent_errc (w : EventWord) (s : State) : (pushEvent w s).errc = s.errc := rfl
@[simp] theorem pushEvent_cmdl (w : EventWord) (s : State) : (pushEvent w s).cmdl = s.cmdl := rfl
@[simp] theorem pushEvent_geov (w : EventWord) (s : State) : (pushEvent w s).geov = s.geov := rfl
@[simp] theorem pushEvent_pktidx (w : EventWord) (s : State) : (pushEvent w s).pktidx = s.pktidx := rfl
@[simp] theorem pushEvent_params (w : EventWord) (s : State) : (pushEvent w s).params = s.params := rfl
@[simp] theorem pushEvent_cmdOffer (w : EventWord) (s : State) : (pushEvent w s).cmdOffer = s.cmdOffer := rfl
@[simp] theorem pushEvent_pktOut (w : EventWord) (s : State) : (pushEvent w s).pktOut = s.pktOut := rfl
@[simp] theorem pushEvent_qzOut (w : EventWord) (s : State) : (pushEvent w s).qzOut = s.qzOut := rfl
@[simp] theorem pushEvent_inbox (w : EventWord) (s : State) : (pushEvent w s).inbox = w :: s.inbox := rfl
@[simp] theorem pushEvent_freeIdx (w : EventWord) (s : State) : (pushEvent w s).freeIdx = s.freeIdx := rfl

end Sys2Proof.Machine
end

