-- ==== Sys2Proof/Laws/Ops.lean ====
section
/-! SUPPORT. For each shared operation, everything it can do, said once; for exec, every move an event can be. -/

namespace Sys2Proof.Machine

open Sys2Proof

/-- ACCEPT latches the waiting record in PH = IDLE; otherwise nothing changes. -/
theorem acceptOffer_cases {s t : State} (h : acceptOffer s = .next t) :
    (∃ c, s.ph = .idle ∧ s.cmdOffer = some c ∧ t = latchCommand c (takeOffer s)) ∨
      ((s.ph ≠ .idle ∨ s.cmdOffer = none) ∧ t = s) := by
  unfold acceptOffer noStep at h
  split at h
  · next c hp hc => exact .inl ⟨c, hp, hc, by simpa using h.symm⟩
  · next hne =>
    refine .inr ⟨?_, by simpa using h.symm⟩
    by_contra hcon
    push Not at hcon
    obtain ⟨hp, hc⟩ := hcon
    obtain ⟨c, hc⟩ := Option.ne_none_iff_exists'.mp hc
    exact hne c hp hc

/-- A record is latched with the encoder's result, or refused with the encoder's code. -/
theorem latchCommand_cases (c : CmdRecord) (s : State) :
    (∃ op hdr pay g, enc c = .ok op hdr pay g ∧ latchCommand c s = latchOk c op hdr pay g s) ∨
      (∃ code, enc c = .bad code ∧ latchCommand c s = latchBad c code s) := by
  unfold latchCommand
  cases h : enc c with
  | ok op hdr pay g => exact .inl ⟨op, hdr, pay, g, rfl, rfl⟩
  | bad code => exact .inr ⟨code, rfl, rfl⟩

/-- A CMD transaction in PH = IDLE latches its own record. -/
theorem cmdTransaction_idle {s : State} (c : CmdRecord) (h : s.ph = .idle) :
    cmdTransaction c s = .next (latchCommand c (takeOffer s)) := by
  simp [cmdTransaction, acceptOffer, h, takeOffer, standOffer]

/-- A CMD transaction in another phase leaves the record waiting. -/
theorem cmdTransaction_busy {s : State} (c : CmdRecord) (h : s.ph ≠ .idle) :
    cmdTransaction c s = .next (standOffer c s) := by
  unfold cmdTransaction acceptOffer noStep
  split
  · next hp _ => exact absurd hp h
  · rfl

theorem acceptOffer_idle {s : State} {c : CmdRecord} (h : s.ph = .idle) (hc : s.cmdOffer = some c) :
    acceptOffer s = .next (latchCommand c (takeOffer s)) := by
  simp [acceptOffer, h, hc]

theorem acceptOffer_busy {s : State} (h : s.ph ≠ .idle) : acceptOffer s = .next s := by
  unfold acceptOffer noStep
  split
  · next hp _ => exact absurd hp h
  · rfl

/-- The state after the issue of the first packet. -/
def afterFirst (s : State) : State :=
  presentPacket (firstPacket s.params.pktMax s.op s.hdr s.pay)
    (BitVec.ofNat 33 (firstCount s.params.pktMax s.hdr s.pay)) s

/-- The state after the issue of a continuation packet. -/
def afterCont (s : State) : State :=
  presentPacket (contPacket s.params.pktMax s.op s.pay s.off.toNat)
    (s.off + BitVec.ofNat 33 (contCount s.params.pktMax s.pay s.off.toNat)) s

/-- Every move the event `i` can be. -/
inductive Move (i : Instr) (s : State) : State → Prop where
  | stay : Move i s s
  | latch (c : CmdRecord) (event : Accepts i c s) : Move i s (latchCommand c (takeOffer s))
  | stand (c : CmdRecord) (event : instrRecord i = some c) (busy : s.ph ≠ .idle) : Move i s (standOffer c s)
  | first (ph : s.ph = .issue) (fst : s.first = true) : Move i s (afterFirst s)
  | cont (ph : s.ph = .issue) (fst : s.first = false) : Move i s (afterCont s)
  | ok (event : i = .writeOk) (ph : s.ph = .wait) : Move i s (answerOk s)
  | err (event : i = .writeErr) (ph : s.ph = .wait) : Move i s (answerErr s)
  | color (c : Color) (event : ∃ r g b, i = .pack565 r g b ∨ i = .pack555 r g b) : Move i s (returnColor c s)
  | reset (event : i = .reset) : Move i s (resetElements s)

theorem cmdTransaction_move {i : Instr} {c : CmdRecord} (hi : instrRecord i = some c) (s : State) :
    ∃ t, cmdTransaction c s = .next t ∧ Move i s t := by
  by_cases h : s.ph = .idle
  · exact ⟨_, cmdTransaction_idle c h, .latch c ⟨h, .inl hi⟩⟩
  · exact ⟨_, cmdTransaction_busy c h, .stand c hi h⟩

theorem acceptOffer_move (s : State) : ∃ t, acceptOffer s = .next t ∧ Move .accept s t := by
  by_cases h : s.ph = .idle
  · cases hc : s.cmdOffer with
    | none => exact ⟨s, by simp [acceptOffer, hc, noStep], .stay⟩
    | some c => exact ⟨_, acceptOffer_idle h hc, .latch c ⟨h, .inr ⟨rfl, hc⟩⟩⟩
  · exact ⟨s, acceptOffer_busy h, .stay⟩

theorem issueFirstPacket_move (i : Instr) (s : State) : ∃ t, issueFirstPacket s = .next t ∧ Move i s t := by
  unfold issueFirstPacket noStep
  split
  · next h => exact ⟨_, rfl, .first h.1 h.2⟩
  · exact ⟨_, rfl, .stay⟩

theorem issueContPacket_move (i : Instr) (s : State) : ∃ t, issueContPacket s = .next t ∧ Move i s t := by
  unfold issueContPacket noStep
  split
  · next h => exact ⟨_, rfl, .cont h.1 h.2⟩
  · exact ⟨_, rfl, .stay⟩

theorem issueFirstOf_move (i : Instr) (op : Opcode) (s : State) :
    ∃ t, issueFirstOf op s = .next t ∧ Move i s t := by
  unfold issueFirstOf noStep
  split
  · exact issueFirstPacket_move i s
  · exact ⟨_, rfl, .stay⟩

theorem issueContOf_move (i : Instr) (op : Opcode) (s : State) :
    ∃ t, issueContOf op s = .next t ∧ Move i s t := by
  unfold issueContOf noStep
  split
  · exact issueContPacket_move i s
  · exact ⟨_, rfl, .stay⟩

theorem takeAnswer_ok_move (s : State) : ∃ t, takeAnswer answerOk s = .next t ∧ Move .writeOk s t := by
  unfold takeAnswer noStep
  split
  · next h => exact ⟨_, rfl, .ok rfl h⟩
  · exact ⟨_, rfl, .stay⟩

theorem takeAnswer_err_move (s : State) : ∃ t, takeAnswer answerErr s = .next t ∧ Move .writeErr s t := by
  unfold takeAnswer noStep
  split
  · next h => exact ⟨_, rfl, .err rfl h⟩
  · exact ⟨_, rfl, .stay⟩

/-- Every event answers a next state, and it is one of the event's moves. -/
theorem exec_move (i : Instr) (s : State) : ∃ t, exec i s = .next t ∧ Move i s t := by
  cases i with
  | fill b => exact cmdTransaction_move rfl s
  | image b => exact cmdTransaction_move rfl s
  | rect b => exact cmdTransaction_move rfl s
  | illegalKind k b => exact cmdTransaction_move rfl s
  | fillFirst => exact issueFirstOf_move _ 1 s
  | imageFirst => exact issueFirstOf_move _ 2 s
  | rectFirst => exact issueFirstOf_move _ 3 s
  | fillCont => exact issueContOf_move _ 1 s
  | imageCont => exact issueContOf_move _ 2 s
  | rectCont => exact issueContOf_move _ 3 s
  | pack565 r g b => exact ⟨_, rfl, .color _ ⟨r, g, b, .inl rfl⟩⟩
  | pack555 r g b => exact ⟨_, rfl, .color _ ⟨r, g, b, .inr rfl⟩⟩
  | accept => exact acceptOffer_move s
  | issueFirst => exact issueFirstPacket_move _ s
  | issueCont => exact issueContPacket_move _ s
  | writeOk => exact takeAnswer_ok_move s
  | writeErr => exact takeAnswer_err_move s
  | reset => exact ⟨_, rfl, .reset rfl⟩

/-- The state an event answers is one of its moves. -/
theorem move_of_exec {i : Instr} {s t : State} (h : exec i s = .next t) : Move i s t := by
  obtain ⟨u, hu, hm⟩ := exec_move i s
  rw [h] at hu
  cases hu
  exact hm

/-- No move changes the instance's parameters (00_scope.md section 3). -/
theorem Move.params_eq {i : Instr} {s t : State} (m : Move i s t) : t.params = s.params := by
  cases m with
  | latch c _ =>
    rcases latchCommand_cases c (takeOffer s) with ⟨_, _, _, _, _, e⟩ | ⟨_, _, e⟩ <;> simp [e]
  | _ => rfl

/-- The CPE's own move is the move of ACCEPT or of an ISSUE step, or none, and it always answers a next state. -/
theorem ownMove_move (s : State) : ∃ i t, ownMove s = .next t ∧ Move i s t := by
  unfold ownMove noStep
  split
  · exact ⟨.accept, acceptOffer_move s⟩
  · exact ⟨.issueFirst, issueFirstPacket_move _ s⟩
  · exact ⟨.issueCont, issueContPacket_move _ s⟩
  · exact ⟨.accept, _, rfl, .stay⟩
  · exact ⟨.accept, _, rfl, .stay⟩

/-- A step of a legal instance is the CPE's own move, or the move of the first event of the schedule. -/
theorem step_cases {s t : State} (h : step s = .next t) :
    s.params.Legal ∧ ((s.inbox = [] ∧ ∃ i, Move i s t) ∨
      ∃ w rest i, s.inbox = w :: rest ∧ decode s.params w = .ok i ∧ exec i (popEvent s) = .next t) := by
  unfold step at h
  split at h
  · next hl =>
    refine ⟨hl, ?_⟩
    split at h
    · next hi =>
      obtain ⟨i, u, hu, hm⟩ := ownMove_move s
      rw [h] at hu
      cases hu
      exact .inl ⟨hi, i, hm⟩
    · next w rest hi =>
      split at h
      · next i hd => exact .inr ⟨w, rest, i, hi, hd, h⟩
      · cases h
  · cases h

end Sys2Proof.Machine
end

