-- ==== Sys2Proof/Laws/Packets.lean ====
section
/-! SUPPORT. Lengths and counts of the encoder's results and of packets. -/

namespace Sys2Proof.Machine

open Sys2Proof

@[simp] theorem le16_length (v : BitVec 16) : (le16 v).length = 2 := rfl

theorem flatMap_le16_length (ps : List Color) : (ps.flatMap le16).length = 2 * ps.length := by
  induction ps with
  | nil => rfl
  | cons c cs ih => simp [ih]; omega

/-- What an accepted record's encoding is, by its kind (41_encoder.md R120, R132). -/
theorem enc_ok_cases {c : CmdRecord} {op : Opcode} {hdr pay : Bytes} {g : Bool} (h : enc c = .ok op hdr pay g) :
    (c.kind = 1 ∧ op = 1 ∧ hdr = [] ∧ pay.length = 2 ∧ g = false) ∨
      (c.kind = 3 ∧ op = 3 ∧ hdr.length = 8 ∧ pay.length = 3 ∧ g = rectWraps c.body) ∨
      (c.kind = 2 ∧ op = 2 ∧ hdr.length = 9 ∧ pay.length = 2 * (c.body.a2.toNat * c.body.a3.toNat) ∧ g = false) := by
  unfold enc at h
  split at h
  · next hk =>
    cases h
    exact .inl ⟨hk, rfl, rfl, rfl, rfl⟩
  · split at h
    · next hk =>
      cases h
      exact .inr (.inl ⟨hk, rfl, by simp, by simp, rfl⟩)
    · split at h
      · next hk =>
        unfold encImage at h
        split at h
        · next hp =>
          cases h
          refine .inr (.inr ⟨hk, rfl, by simp, ?_, rfl⟩)
          have : c.body.pix.length = c.body.a2.toNat * c.body.a3.toNat := by simpa [pixLengthOk] using hp
          rw [flatMap_le16_length, this]
        · cases h
      · cases h

/-- A record the encoder refuses is refused for ILLEGAL_KIND or PIX_LEN (41_encoder.md R120). -/
theorem enc_bad_cases {c : CmdRecord} {code : ErrCode} (h : enc c = .bad code) :
    code = .illegalKind ∨ code = .pixLen := by
  unfold enc encFill encRect encImage at h
  split at h
  · cases h
  · split at h
    · cases h
    · split at h
      · split at h
        · cases h
        · cases h; exact .inr rfl
      · cases h; exact .inl rfl

theorem firstCount_le_pay (M : Nat) (hdr pay : Bytes) : firstCount M hdr pay ≤ pay.length :=
  Nat.min_le_left _ _

theorem firstCount_le_budget (M : Nat) (hdr pay : Bytes) : firstCount M hdr pay ≤ M - hdr.length :=
  Nat.min_le_right _ _

theorem contCount_le_budget (M : Nat) (pay : Bytes) (off : Nat) : contCount M pay off ≤ M :=
  Nat.min_le_right _ _

theorem contCount_pos {M : Nat} {pay : Bytes} {off : Nat} (hM : 0 < M) (h : off < pay.length) :
    0 < contCount M pay off := by
  unfold contCount; omega

/-- A first packet has its control byte, its header and its share of the payload (42_framer.md R160). -/
theorem firstPacket_length (M : Nat) (op : Opcode) (hdr pay : Bytes) :
    (firstPacket M op hdr pay).length = 1 + hdr.length + firstCount M hdr pay := by
  simp [firstPacket, firstCount]; omega

/-- A continuation packet has its control byte and its share of the payload (42_framer.md R160). -/
theorem contPacket_length (M : Nat) (op : Opcode) (pay : Bytes) (off : Nat) :
    (contPacket M op pay off).length = 1 + contCount M pay off := by
  simp [contPacket, contCount]; omega

end Sys2Proof.Machine
end

