-- ==== Sys2Proof/Laws/PerInstr.lean ====
section
/-! SUPPORT. Statements made of every instruction, one lemma per constructor. -/

namespace Sys2Proof.Laws

open Sys2Proof

/-- The format of an instruction's row in spec/opcode_table.json. -/
def rowFormat : Instr → EventFormat
  | .fill _ => .cmdRecord
  | .image _ => .cmdRecord
  | .rect _ => .cmdRecord
  | .illegalKind _ _ => .cmdRecord
  | .fillFirst => .ctrl
  | .imageFirst => .ctrl
  | .rectFirst => .ctrl
  | .fillCont => .ctrl
  | .imageCont => .ctrl
  | .rectCont => .ctrl
  | .pack565 _ _ _ => .qz
  | .pack555 _ _ _ => .qz
  | .accept => .step
  | .issueFirst => .step
  | .issueCont => .step
  | .writeOk => .step
  | .writeErr => .step
  | .reset => .step

namespace EncodeFormat

/-- The encoder puts an instruction on the channel of its row's format, whatever the instance. -/
def Statement (i : Instr) : Prop := ∀ p : Params, (encode p i).format = rowFormat i

theorem fill (b : CmdBody) : Statement (.fill b) := fun _ => rfl
theorem image (b : CmdBody) : Statement (.image b) := fun _ => rfl
theorem rect (b : CmdBody) : Statement (.rect b) := fun _ => rfl
theorem illegalKind (k : Opcode) (b : CmdBody) : Statement (.illegalKind k b) := fun _ => rfl
theorem fillFirst : Statement .fillFirst := fun _ => rfl
theorem imageFirst : Statement .imageFirst := fun _ => rfl
theorem rectFirst : Statement .rectFirst := fun _ => rfl
theorem fillCont : Statement .fillCont := fun _ => rfl
theorem imageCont : Statement .imageCont := fun _ => rfl
theorem rectCont : Statement .rectCont := fun _ => rfl
theorem pack565 (r g b : ChannelValue) : Statement (.pack565 r g b) := fun _ => rfl
theorem pack555 (r g b : ChannelValue) : Statement (.pack555 r g b) := fun _ => rfl
theorem accept : Statement .accept := fun _ => rfl
theorem issueFirst : Statement .issueFirst := fun _ => rfl
theorem issueCont : Statement .issueCont := fun _ => rfl
theorem writeOk : Statement .writeOk := fun _ => rfl
theorem writeErr : Statement .writeErr := fun _ => rfl
theorem reset : Statement .reset := fun _ => rfl

end EncodeFormat

end Sys2Proof.Laws
end

