-- ==== Sys2Proof/Tests/Slice0.lean ====
section
/-! SUPPORT. The model's own tests: well-formedness, decoding, the vectors of 95_test_vectors.md, and for each statement
with hypotheses a state and operands that meet them. -/

namespace Sys2Proof.Tests

open Sys2Proof Sys2Proof.Machine

/-! ## Helpers -/

/-- The state after a few events, from a given one (`State.reset` where an event answers no next state). -/
def after (s : State) (is : List Instr) : State :=
  match execAll is s with
  | .next t => t
  | .fault _ => State.reset
  | .refused _ => State.reset

/-- The state after reset of an instance with another PKT_MAX. -/
def resetWith (pktMax : Nat) : State := { State.reset with params := { pktMax := pktMax, chW := 8 } }

/-- The packets an accepted record gives. -/
def packetsOf (M : Nat) (i : Instr) : Option (List Bytes) :=
  match i with
  | .fill b => sent (enc { kind := 1, body := b })
  | .image b => sent (enc { kind := 2, body := b })
  | .rect b => sent (enc { kind := 3, body := b })
  | _ => none
where
  sent : EncResult → Option (List Bytes)
    | .ok op hdr pay _ => some (frame M op hdr pay)
    | .bad _ => none

/-- GEOV as the encoder gives it. -/
def geovOf (i : Instr) : Option Bool :=
  match i with
  | .rect b =>
    match enc { kind := 3, body := b } with
    | .ok _ _ _ g => some g
    | .bad _ => none
  | _ => none

/-- A record body with every field given, for records whose ignored fields are not zero. -/
def fullBody (w h : Geom) (pix : List Color) : CmdBody :=
  { a0 := 1, a1 := 2, a2 := w, a3 := h, color := 0xFFFF, blend := 7, pix := pix }

/-! ## Well-formedness: each check refuses an ill-formed term -/

theorem test_wf_assigned_kind_is_no_illegal_kind :
    Instr.wf Params.default (.illegalKind 1 (fullBody 0 0 [])) = false ∧
    Instr.wf Params.default (.illegalKind 3 (fullBody 0 0 [])) = false ∧
    Instr.wf Params.default (.illegalKind 0 (fullBody 0 0 [])) = true ∧
    Instr.wf Params.default (.illegalKind 63 (fullBody 0 0 [])) = true := by decide

theorem test_wf_channel_wider_than_chW :
    Instr.wf Params.default (.pack565 256 0 0) = false ∧ Instr.wf Params.default (.pack565 0 256 0) = false ∧
    Instr.wf Params.default (.pack565 0 0 256) = false ∧ Instr.wf Params.default (.pack555 256 0 0) = false ∧
    Instr.wf Params.default (.pack555 0 256 0) = false ∧ Instr.wf Params.default (.pack555 0 0 256) = false ∧
    Instr.wf Params.default (.pack555 255 255 255) = true := by decide

/-- 00_scope.md R5, R6: the ranges' ends. -/
theorem test_params_ranges :
    Params.build 8 8 = none ∧ Params.build 64 8 = none ∧ Params.build 63 0 = none ∧ Params.build 63 33 = none ∧
    (Params.build 9 1).isSome ∧ (Params.build 63 32).isSome := by decide

/-! ## Decoding: a written-out word for every constructor -/

/-- 30_encoding.md R71, R72: the six control bytes, bit by bit. -/
theorem test_decode_control_bytes :
    decode Params.default { format := .ctrl, bytes := [0b11000001] } = .ok .fillFirst ∧
    decode Params.default { format := .ctrl, bytes := [0b11000010] } = .ok .imageFirst ∧
    decode Params.default { format := .ctrl, bytes := [0b11000011] } = .ok .rectFirst ∧
    decode Params.default { format := .ctrl, bytes := [0b00000001] } = .ok .fillCont ∧
    decode Params.default { format := .ctrl, bytes := [0b00000010] } = .ok .imageCont ∧
    decode Params.default { format := .ctrl, bytes := [0b00000011] } = .ok .rectCont := by decide

/-- 30_encoding.md R85: kinds 1, 2, 3 and the reserved kinds 0, 4 and 63. -/
theorem test_decode_records :
    decode Params.default { format := .cmdRecord, bytes := [1, 0, 0, 0, 0, 0, 0, 0, 0, 0xCD, 0xAB, 0] } =
      .ok (fillCall 0xABCD) ∧
    decode Params.default { format := .cmdRecord, bytes := [2, 5, 0, 6, 0, 1, 0, 2, 0, 0, 0, 1, 0x34, 0x12, 0x78, 0x56] } =
      .ok (imageCall 5 6 1 2 1 [0x1234, 0x5678]) ∧
    decode Params.default { format := .cmdRecord, bytes := [3, 2, 1, 4, 3, 0x10, 0, 0x20, 0, 0x41, 0x18, 1] } =
      .ok (rectCall 0x0102 0x0304 0x0010 0x0020 0x1841 1) ∧
    decode Params.default { format := .cmdRecord, bytes := [0, 0, 0, 0, 0, 0, 0, 0, 0, 0, 0, 0] } =
      .ok (.illegalKind 0 resetCmdl.body) ∧
    decode Params.default { format := .cmdRecord, bytes := [4, 0, 0, 0, 0, 0, 0, 0, 0, 0, 0, 0] } =
      .ok (.illegalKind 4 resetCmdl.body) ∧
    decode Params.default { format := .cmdRecord, bytes := [63, 0, 0, 0, 0, 0, 0, 0, 0, 0, 0, 0] } =
      .ok (.illegalKind 63 resetCmdl.body) := by decide

/-- 30_encoding.md R86, R87: QMODE at bit 0, then r, g and b, 8 bits each. 31, 63, 31 and QMODE = 0 is 0x3E7E3E. -/
theorem test_decode_quantizer_words :
    decode Params.default { format := .qz, bytes := [0x3E, 0x7E, 0x3E, 0x00] } = .ok (.pack565 31 63 31) ∧
    decode Params.default { format := .qz, bytes := [0x01, 0x02, 0x00, 0x00] } = .ok (.pack555 0 1 0) := by decide

theorem test_decode_step_events :
    decode Params.default { format := .step, bytes := [0] } = .ok .accept ∧
    decode Params.default { format := .step, bytes := [1] } = .ok .issueFirst ∧
    decode Params.default { format := .step, bytes := [2] } = .ok .issueCont ∧
    decode Params.default { format := .step, bytes := [3] } = .ok .writeOk ∧
    decode Params.default { format := .step, bytes := [4] } = .ok .writeErr ∧
    decode Params.default { format := .step, bytes := [5] } = .ok .reset := by decide

/-- Every rejection, by its name (30_encoding.md R75 for the control bytes). -/
theorem test_decode_rejects_by_name :
    decode Params.default { format := .ctrl, bytes := [0xC0] } = .error .ctrlNeverEmitted ∧
    decode Params.default { format := .ctrl, bytes := [0x81] } = .error .ctrlNeverEmitted ∧
    decode Params.default { format := .ctrl, bytes := [0x41] } = .error .ctrlNeverEmitted ∧
    decode Params.default { format := .ctrl, bytes := [] } = .error .ctrlLength ∧
    decode Params.default { format := .cmdRecord, bytes := [1] } = .error .recordLength ∧
    decode Params.default { format := .cmdRecord, bytes := [1, 0, 0, 0, 0, 0, 0, 0, 0, 0, 0, 0, 9] } =
      .error .recordLength ∧
    decode Params.default { format := .cmdRecord, bytes := [0x41, 0, 0, 0, 0, 0, 0, 0, 0, 0, 0, 0] } =
      .error .recordPadding ∧
    decode Params.default { format := .qz, bytes := [0] } = .error .qzLength ∧
    decode Params.default { format := .qz, bytes := [0, 0, 0, 0x02] } = .error .qzPadding ∧
    decode Params.default { format := .step, bytes := [0, 0] } = .error .stepLength ∧
    decode Params.default { format := .step, bytes := [6] } = .error .stepUnknown := by decide

/-- The bare words of the table that no other row of an earlier reading shares (log entry 5). -/
theorem test_table_words :
    decodeTableWord 8 1 = some (fillCall 0) ∧ decodeTableWord 8 2 = some (imageCall 0 0 0 0 0 []) ∧
    decodeTableWord 8 3 = some (rectCall 0 0 0 0 0 0) ∧ decodeTableWord 8 0xC1 = some .fillFirst ∧
    decodeTableWord 8 0xC2 = some .imageFirst ∧ decodeTableWord 8 0xC3 = some .rectFirst ∧
    decodeTableWord 8 0 = some (.pack565 0 0 0) ∧ decodeTableWord 1 1 = some (.pack555 0 0 0) ∧
    decodeTableWord 8 4 = some (.illegalKind 4 resetCmdl.body) := by decide

/-! ## Quantizer vectors (95_test_vectors.md section 2) -/

/-- S1 (a source example), Q7, Q8, Q11. -/
theorem test_pack565_vectors :
    pack565Color 31 63 31 = 0xFFFF ∧ pack565Color 32 64 32 = 0xFFFF ∧ pack565Color 1 2 3 = 0x1841 ∧
    pack565Color 10 20 30 = 0xF28A := by decide

/-- Q12, Q13, Q14, Q18. -/
theorem test_pack555_vectors :
    pack555Color 31 31 31 = 0xFFDF ∧ pack555Color 31 32 31 = 0xFFFF ∧ pack555Color 0 1 0 = 0x0040 ∧
    pack555Color 1 2 3 = 0x1881 := by decide

/-- Q11, Q20 through the events, with the framer faulted. -/
theorem test_quantizer_in_fault :
    (after (after State.reset [.illegalKind 0 resetCmdl.body]) [.pack565 10 20 30, .pack555 10 20 30]).qzOut =
      [0xF28A, 0xF50A] := by decide

/-! ## Encoder and framer vectors (95_test_vectors.md section 3) -/

/-- F1, F4. -/
theorem test_fill_and_rect_packets :
    packetsOf 63 (fillCall 0xFFFF) = some [[0xC1, 0xFF, 0xFF]] ∧
    packetsOf 63 (rectCall 0x0102 0x0304 0x0010 0x0020 0x1841 (blendCode .xor)) =
      some [[0xC3, 0x02, 0x01, 0x04, 0x03, 0x12, 0x01, 0x24, 0x03, 0x41, 0x18, 0x01]] := by decide

/-- F5, F6: the right edge, then the bottom edge wraps. -/
theorem test_rect_wraps :
    packetsOf 63 (rectCall 0xFFF0 5 0x20 7 0x001F (blendCode .or)) =
      some [[0xC3, 0xF0, 0xFF, 0x05, 0x00, 0x10, 0x00, 0x0C, 0x00, 0x1F, 0x00, 0x02]] ∧
    geovOf (rectCall 0xFFF0 5 0x20 7 0x001F (blendCode .or)) = some true ∧
    geovOf (rectCall 0 0xFFFF 1 1 0 (blendCode .and)) = some true ∧
    geovOf (rectCall 1 2 3 4 0xABCD 255) = some false := by decide

/-- F8, F9, F9b: RECT at PKT_MAX 9, 10 and 11. -/
theorem test_rect_split :
    packetsOf 9 (rectCall 0 0 10 10 0xFFFF (blendCode .copy)) =
      some [[0xC3, 0, 0, 0, 0, 0x0A, 0, 0x0A, 0, 0xFF], [0x03, 0xFF, 0x00]] ∧
    packetsOf 10 (rectCall 0 0 10 10 0xFFFF 0) =
      some [[0xC3, 0, 0, 0, 0, 0x0A, 0, 0x0A, 0, 0xFF, 0xFF], [0x03, 0x00]] ∧
    packetsOf 11 (rectCall 0 0 10 10 0xFFFF 0) = some [[0xC3, 0, 0, 0, 0, 0x0A, 0, 0x0A, 0, 0xFF, 0xFF, 0x00]] := by
  decide

/-- F14, F15, F16. -/
theorem test_image_packets :
    packetsOf 63 (imageCall 5 6 0 7 1 []) = some [[0xC2, 5, 0, 6, 0, 0, 0, 7, 0, 1]] ∧
    packetsOf 9 (imageCall 0 0 2 2 0 [0x1111, 0x2222, 0x3333, 0x4444]) =
      some [[0xC2, 0, 0, 0, 0, 2, 0, 2, 0, 0], [0x02, 0x11, 0x11, 0x22, 0x22, 0x33, 0x33, 0x44, 0x44]] ∧
    packetsOf 9 (imageCall 0 0 5 1 0 [0x0100, 0x0302, 0x0504, 0x0706, 0x0908]) =
      some [[0xC2, 0, 0, 0, 0, 5, 0, 1, 0, 0], [0x02, 0, 1, 2, 3, 4, 5, 6, 7, 8], [0x02, 9]] := by decide

/-- 42_framer.md R161 on the packets of F8 and F1. -/
theorem test_reassemble :
    reassemble [[0xC3, 0, 0, 0, 0, 0x0A, 0, 0x0A, 0, 0xFF], [0x03, 0xFF, 0x00], [0xC1, 0xFF, 0xFF]] =
      [{ op := 3, hdr := [0, 0, 0, 0, 0x0A, 0, 0x0A, 0], pay := [0xFF, 0xFF, 0] },
       { op := 1, hdr := [], pay := [0xFF, 0xFF] }] := by decide

/-! ## Step vectors (95_test_vectors.md section 3) -/

/-- E1, E3, E4: ERRC of the refused records. -/
theorem test_refused_records :
    (after State.reset [.illegalKind 0 (fullBody 0 0 [])]).errc = .illegalKind ∧
    (after State.reset [.illegalKind 63 (fullBody 2 2 [0])]).errc = .illegalKind ∧
    (after State.reset [.image (fullBody 2 2 [1, 2, 3])]).errc = .pixLen ∧
    (after State.reset [.image (fullBody 2 2 [1, 2, 3])]).pktOut = [] := by decide

/-- E5, E6: the nearest accepted records. -/
theorem test_accepted_records :
    (after State.reset [.image (fullBody 0 5 [])]).ph = .issue ∧
    (after State.reset [.fill (fullBody 9 9 [1, 2, 3])]).pay = [0xFF, 0xFF] := by decide

/-- T1, T2. -/
theorem test_fill_accept_and_issue :
    (after State.reset [fillCall 0xFFFF]).first = true ∧ (after State.reset [fillCall 0xFFFF]).op = 1 ∧
    (after State.reset [fillCall 0xFFFF, .issueFirst]).pktOut = [[0xC1, 0xFF, 0xFF]] ∧
    (after State.reset [fillCall 0xFFFF, .issueFirst]).off = 2 := by decide

/-- T3, T4. -/
theorem test_write_results :
    (after State.reset [fillCall 0xFFFF, .issueFirst, .writeOk]).ph = .idle ∧
    (after State.reset [fillCall 0xFFFF, .issueFirst, .writeOk]).pktidx = 1 ∧
    (after State.reset [fillCall 0xFFFF, .issueFirst, .writeErr]).errc = .writeErr ∧
    (after State.reset [fillCall 0xFFFF, .issueFirst, .writeErr]).pktidx = 0 := by decide

/-- T5: an offer in FAULT waits; T8: a write result in ISSUE changes nothing. -/
theorem test_no_step :
    (after State.reset [.illegalKind 0 resetCmdl.body, fillCall 0]).ph = .fault ∧
    (after State.reset [.illegalKind 0 resetCmdl.body, fillCall 0]).cmdOffer.isSome = true ∧
    after State.reset [fillCall 0, .writeOk] = after State.reset [fillCall 0] := by decide

/-- T6, T7: RESET in FAULT and in WAIT. -/
theorem test_reset :
    (after State.reset [fillCall 0xFFFF, .issueFirst, .writeErr, .reset]).ph = .idle ∧
    (after State.reset [fillCall 0xFFFF, .issueFirst, .writeErr, .reset]).errc = .none ∧
    (after State.reset [fillCall 0xFFFF, .issueFirst, .reset]).ph = .idle ∧
    (after State.reset [fillCall 0xFFFF, .issueFirst, .reset]).pend = [] := by decide

/-- A continuation packet, by the generic step and by its row (F8's second packet). -/
theorem test_issue_continuation :
    (after (resetWith 9) [rectCall 0 0 10 10 0xFFFF 0, .rectFirst, .writeOk, .rectCont]).pend = [0x03, 0xFF, 0x00] ∧
    (after (resetWith 9) [rectCall 0 0 10 10 0xFFFF 0, .rectFirst, .writeOk, .issueCont]).off = 3 := by decide

/-- The rows of another opcode do nothing; IMAGE's own rows issue (F15's packets). -/
theorem test_control_rows :
    (after (resetWith 9) [imageCall 0 0 1 1 0 [0x1111], .fillFirst, .rectFirst]).pktOut = [] ∧
    (after (resetWith 9) [imageCall 0 0 1 1 0 [0x1111], .imageFirst, .writeOk, .fillCont, .imageCont]).pktOut =
      [[0xC2, 0, 0, 0, 0, 1, 0, 1, 0, 0], [0x02, 0x11, 0x11]] ∧
    (after State.reset [fillCall 0xFFFF, .fillFirst]).pend = [0xC1, 0xFF, 0xFF] := by decide

/-- ACCEPT takes an offer that waited (42_framer.md R150, R151). -/
theorem test_accept_takes_the_waiting_offer :
    (after State.reset [fillCall 1, .issueFirst, fillCall 2, .writeOk, .accept]).pay = [2, 0] ∧
    (after State.reset [fillCall 1, .issueFirst, fillCall 2, .writeOk, .accept]).cmdOffer = none := by decide

/-- STATUS after P2's second RECT is accepted (PH 1, FIRST 1, GEOV 1), after P5's illegal record (0x0013), and after a
failed write (0x000B, P4); CFG at PKT_MAX = 9 (P6). -/
theorem test_registers :
    readStatus (after State.reset [rectCall 0xFFF0 5 0x20 7 0x001F 2]) = 0x0045 ∧
    readStatus (after State.reset [.illegalKind 0 resetCmdl.body]) = 0x0013 ∧
    readStatus (after State.reset [fillCall 0xFFFF, .issueFirst, .writeErr]) = 0x000B ∧
    readCfg (resetWith 9) = 0x09 := by decide

/-! ## The step -/

/-- What a step leaves in PH, where it answers a next state. -/
def phaseAfterStep (s : State) : Option Phase :=
  match step s with
  | .next t => some t.ph
  | .fault _ => none
  | .refused _ => none

/-- The reason a step is refused. -/
def refusalOf (s : State) : Option Refusal :=
  match step s with
  | .next _ => none
  | .fault _ => none
  | .refused r => some r

theorem test_step_runs_a_table_word :
    phaseAfterStep (State.reset.withFetchWord 8 1) = some .issue ∧
    phaseAfterStep (State.reset.withFetchWord 8 0xC1) = some .idle ∧
    phaseAfterStep State.reset = some .idle := by decide

theorem test_step_refuses_by_name :
    refusalOf (resetWith 8) = some .illegalInstance ∧
    refusalOf { State.reset with inbox := [{ format := .step, bytes := [6] }] } =
      some (.undecodable .stepUnknown) := by decide

/-! ## Witnesses: for each statement with hypotheses, data that meets them -/

/-- RECT at PKT_MAX = 9, before its first packet. -/
def beforeFirst : State := after (resetWith 9) [rectCall 0 0 10 10 0xFFFF 0]

/-- RECT at PKT_MAX = 9, its first packet outstanding. -/
def firstOut : State := after (resetWith 9) [rectCall 0 0 10 10 0xFFFF 0, .issueFirst]

/-- RECT at PKT_MAX = 9, before its last packet. -/
def beforeCont : State := after (resetWith 9) [rectCall 0 0 10 10 0xFFFF 0, .issueFirst, .writeOk]

/-- RECT at PKT_MAX = 9, its last packet outstanding. -/
def lastOut : State := after (resetWith 9) [rectCall 0 0 10 10 0xFFFF 0, .issueFirst, .writeOk, .issueCont]

/-- The fault state after a failed write. -/
def faulted : State := after (resetWith 9) [rectCall 0 0 10 10 0xFFFF 0, .issueFirst, .writeErr]

theorem inv_beforeFirst : Inv beforeFirst := by
  refine ⟨by decide, by decide, by decide, by decide, ?_, by decide, by decide, by decide⟩
  unfold Active; decide

theorem inv_firstOut : Inv firstOut := by
  refine ⟨by decide, by decide, by decide, by decide, ?_, by decide, by decide, by decide⟩
  unfold Active; decide

theorem inv_beforeCont : Inv beforeCont := by
  refine ⟨by decide, by decide, by decide, by decide, ?_, by decide, by decide, by decide⟩
  unfold Active; decide

theorem inv_lastOut : Inv lastOut := by
  refine ⟨by decide, by decide, by decide, by decide, ?_, by decide, by decide, by decide⟩
  unfold Active; decide

theorem inv_faulted : Inv faulted := by
  refine ⟨by decide, by decide, by decide, by decide, ?_, by decide, by decide, by decide⟩
  unfold Active; decide

/-- FillIsAccepted…, RectIsAccepted…, ImageIsAccepted… (with and without pixels), ImageOfWrongPixelCount…,
ReservedKind… (both ends of the reserved range). -/
theorem witness_commands_in_idle :
    State.reset.ph = .idle ∧ (9 ≤ 9) ∧ (fullBody 2 1 [3, 4]).pix.length = (2#16).toNat * (1#16).toNat ∧
    (fullBody 0 5 []).pix.length = (0#16).toNat * (5#16).toNat ∧ (fullBody 0 5 []).a2 = 0 ∧
    (fullBody 2 2 [0]).pix.length ≠ (2#16).toNat * (2#16).toNat ∧
    (0 : Opcode) = 0 ∧ 4 ≤ (4 : Opcode).toNat ∧ 4 ≤ (63 : Opcode).toNat := by decide

/-- RectIsAccepted…: a sum of exactly 0xFFFF and one of 0x10000. -/
theorem witness_rect_wrap_boundary :
    geovOf (rectCall 0xFFFE 0 1 0 0 0) = some false ∧ geovOf (rectCall 0xFFFF 0 1 0 0 0) = some true ∧
    geovOf (rectCall 0 0xFFFF 0 0 0 0) = some false ∧ geovOf (rectCall 0 0xFFFF 0 1 0 0) = some true := by decide

/-- OfferOutsideIdleWaits: each of the three phases. -/
theorem witness_phases_outside_idle :
    beforeFirst.ph ≠ .idle ∧ firstOut.ph ≠ .idle ∧ faulted.ph ≠ .idle := by decide

/-- AcceptLatchesTheOfferedRecord: an offered record that the encoder takes, and one that it refuses. -/
theorem witness_offers_in_idle :
    (standOffer { kind := 1, body := fullBody 0 0 [] } State.reset).ph = .idle ∧
    (standOffer { kind := 1, body := fullBody 0 0 [] } State.reset).cmdOffer =
      some { kind := 1, body := fullBody 0 0 [] } ∧
    enc { kind := 1, body := fullBody 0 0 [] } = .ok 1 [] [0xFF, 0xFF] false ∧
    enc { kind := 5, body := fullBody 0 0 [] } = .bad .illegalKind ∧
    enc { kind := 2, body := fullBody 1 1 [] } = .bad .pixLen := by decide

/-- AcceptedCommandSendsExactlyItsFrame: a legal instance in IDLE with an offered record that takes two packets. -/
theorem witness_command_to_send :
    (resetWith 9).params.Legal ∧ (standOffer { kind := 3, body := fullBody 1 1 [] } (resetWith 9)).ph = .idle ∧
    (∃ hdr pay, enc { kind := 3, body := fullBody 1 1 [] } = .ok 3 hdr pay false ∧
      packetCount 9 hdr.length pay.length = 2) := by
  refine ⟨by decide, by decide, _, _, rfl, by decide⟩

/-- UnusedRecordFields…: two FILL bodies of one color. -/
theorem witness_same_color : (fullBody 0 0 []).color = (fullBody 5 6 [1]).color ∧ fullBody 0 0 [] ≠ fullBody 5 6 [1] := by
  decide

/-- AcceptedRecordsHave… and ShortCommands…: one accepted record of each kind, at PKT_MAX 9 and 63. -/
theorem witness_accepted_kinds :
    enc { kind := 1, body := fullBody 0 0 [] } = .ok 1 [] [0xFF, 0xFF] false ∧
    enc { kind := 3, body := fullBody 1 1 [] } = .ok 3 [1, 0, 2, 0, 2, 0, 3, 0] [0xFF, 0xFF, 7] false ∧
    enc { kind := 2, body := fullBody 1 1 [9] } = .ok 2 [1, 0, 2, 0, 1, 0, 1, 0, 7] [9, 0] false ∧ 9 ≤ 9 ∧ 9 ≤ 63 := by
  decide

/-- IssueFirst… and FirstPacketRows… (op 3): a command before its first packet. -/
theorem witness_before_first :
    beforeFirst.ph = .issue ∧ beforeFirst.first = true ∧ beforeFirst.op = 3 ∧
    min beforeFirst.pay.length (beforeFirst.params.pktMax - beforeFirst.hdr.length) = 1 := by decide

/-- FirstPacketRows…, op 1 and op 2. -/
theorem witness_before_first_of_fill_and_image :
    (after State.reset [fillCall 0]).ph = .issue ∧ (after State.reset [fillCall 0]).first = true ∧
    (after State.reset [fillCall 0]).op = 1 ∧ (after State.reset [imageCall 0 0 0 0 0 []]).ph = .issue ∧
    (after State.reset [imageCall 0 0 0 0 0 []]).first = true ∧ (after State.reset [imageCall 0 0 0 0 0 []]).op = 2 := by
  decide

/-- IssueCont… and ContinuationRows… (op 3): a command before a continuation packet, in a legal instance. -/
theorem witness_before_continuation :
    beforeCont.ph = .issue ∧ beforeCont.first = false ∧ beforeCont.op = 3 ∧ beforeCont.params.Legal ∧
    beforeCont.off.toNat < beforeCont.pay.length ∧
    min (beforeCont.pay.length - beforeCont.off.toNat) beforeCont.params.pktMax = 2 := by decide

/-- ContinuationRows…, op 2 in a reached state, and op 1 in a state that no run reaches. -/
theorem witness_before_continuation_of_image_and_fill :
    (after (resetWith 9) [imageCall 0 0 1 1 0 [9], .issueFirst, .writeOk]).ph = .issue ∧
    (after (resetWith 9) [imageCall 0 0 1 1 0 [9], .issueFirst, .writeOk]).first = false ∧
    (after (resetWith 9) [imageCall 0 0 1 1 0 [9], .issueFirst, .writeOk]).op = 2 ∧
    ({ beforeCont with op := 1 } : State).ph = .issue ∧ ({ beforeCont with op := 1 } : State).first = false ∧
    ({ beforeCont with op := 1 } : State).op = 1 := by decide

/-- WriteOk…, WriteErr…, ResetAbandons…: a packet outstanding, before the last one and the last one. -/
theorem witness_outstanding :
    firstOut.ph = .wait ∧ firstOut.off.toNat ≠ firstOut.pay.length ∧ lastOut.ph = .wait ∧
    lastOut.off.toNat = lastOut.pay.length := by decide

/-- MovesWithFalseGuards…: each guard false in some state. -/
theorem witness_false_guards :
    (beforeFirst.ph ≠ .idle) ∧ State.reset.cmdOffer = none ∧ State.reset.ph ≠ .issue ∧ State.reset.ph ≠ .wait ∧
    beforeCont.first = false ∧ beforeFirst.first = true ∧ beforeFirst.op ≠ 1 ∧ beforeFirst.op ≠ 2 ∧
    (after State.reset [fillCall 0]).op ≠ 3 := by decide

/-- IssuePhase… and IdleCpe…: a legal instance with nothing scheduled, in each phase. -/
theorem witness_nothing_scheduled :
    beforeFirst.params.Legal ∧ beforeFirst.inbox = [] ∧ beforeFirst.ph = .issue ∧ firstOut.inbox = [] ∧
    firstOut.ph = .wait ∧ State.reset.params.Legal ∧ State.reset.inbox = [] ∧ State.reset.ph = .idle ∧
    faulted.params.Legal ∧ faulted.inbox = [] ∧ faulted.ph = .fault := by decide

/-- The statements about Frame: a header within the budget, with an empty payload, a payload of one byte too many, and
a remainder that is an exact multiple of PKT_MAX. -/
theorem witness_frame_sizes :
    1 ≤ 9 ∧ ([1, 2] : Bytes).length ≤ 9 ∧ ([] : Bytes).length ≤ 9 - 2 ∧
    (frame 9 2 [1, 2] (List.replicate 8 0)).length = 2 ∧ 9 - 2 < (List.replicate 16 (0 : Byte)).length ∧
    ((List.replicate 16 (0 : Byte)).length - (9 - 2)) % 9 = 0 ∧
    1 + 1 < (frame 9 2 [1, 2] (List.replicate 17 0)).length ∧
    ((frame 9 2 [1, 2] (List.replicate 17 0))[1]?).isSome = true := by decide

/-- ReassembleGivesBackTheCommands: a stream of two commands. -/
theorem witness_stream :
    ∀ r ∈ [({ op := 1, hdr := [], pay := [0xFF, 0xFF] } : Rebuilt), { op := 1, hdr := [], pay := [0xFF, 0xFF] }],
      ∃ (c : CmdRecord) (geov : Bool), enc c = .ok r.op r.hdr r.pay geov := by
  intro r hr
  refine ⟨{ kind := 1, body := fullBody 0 0 [] }, false, ?_⟩
  fin_cases hr <;> decide

/-- PacketsArePresented…, IssuedPacket…, EveryPacket…, OnlyTheListedControlBytes…, OffCounts…: an issue from a state of
the invariant, of the first packet and of a continuation. -/
theorem witness_issue_from_invariant :
    Inv beforeFirst ∧ exec .issueFirst beforeFirst = .next firstOut ∧ beforeFirst.ph = .issue ∧ firstOut.ph = .wait ∧
    Inv beforeCont ∧ exec .issueCont beforeCont = .next lastOut ∧ beforeCont.ph = .issue ∧ lastOut.ph = .wait :=
  ⟨inv_beforeFirst, rfl, by decide, by decide, inv_beforeCont, rfl, by decide, by decide⟩

/-- CommandEnds…: the answer to the last packet, and to one before it. GoodEnds…: an end of each kind. -/
theorem witness_ends :
    Inv lastOut ∧ lastOut.ph = .wait ∧ exec .writeOk lastOut = .next (after lastOut [.writeOk]) ∧
    (after lastOut [.writeOk]).ph = .idle ∧ Inv firstOut ∧ exec .writeOk firstOut = .next beforeCont ∧
    Inv (after lastOut [.writeOk]) ∧ GoodEnd (after lastOut [.writeOk]) ∧ Inv faulted ∧ FaultedEnd faulted := by
  refine ⟨inv_lastOut, by decide, rfl, by decide, inv_firstOut, rfl, ?_, rfl, inv_faulted, rfl⟩
  refine ⟨by decide, by decide, by decide, by decide, ?_, by decide, by decide, by decide⟩
  unfold Active; decide

/-- PktidxCounts…: a write result of each kind, and an accept, from states of the invariant. -/
theorem witness_answers_from_invariant :
    Inv firstOut ∧ firstOut.ph = .wait ∧ exec .writeOk firstOut = .next beforeCont ∧
    exec .writeErr firstOut = .next faulted ∧ Inv faulted ∧ Inv lastOut :=
  ⟨inv_firstOut, by decide, rfl, rfl, inv_faulted, inv_lastOut⟩

/-- OnlyResetLeaves…: an event in FAULT. FaultsBegin…: each of the two ways into it. -/
theorem witness_faults :
    faulted.ph = .fault ∧ Instr.accept ≠ .reset ∧ exec .accept faulted = .next faulted ∧ firstOut.ph ≠ .fault ∧
    exec .writeErr firstOut = .next faulted ∧ State.reset.ph ≠ .fault ∧
    (after State.reset [.illegalKind 4 resetCmdl.body]).ph = .fault ∧
    instrRecord (.illegalKind 4 resetCmdl.body) = some { kind := 4, body := resetCmdl.body } :=
  ⟨by decide, by decide, rfl, by decide, rfl, by decide, by decide, rfl⟩

/-- FaultsBegin…, OnlyAcceptAndReset…, PktidxCounts…: an accept in IDLE from a state of the invariant, by a CMD
transaction and by ACCEPT of a waiting record, taken and refused. -/
theorem witness_accepts_from_invariant :
    Inv State.reset ∧ State.reset.ph = .idle ∧ (after State.reset [fillCall 1]).ph = .issue ∧
    Inv (standOffer { kind := 4, body := resetCmdl.body } State.reset) ∧
    (after (standOffer { kind := 4, body := resetCmdl.body } State.reset) [.accept]).ph = .fault ∧
    (after (standOffer { kind := 1, body := resetCmdl.body } State.reset) [.accept]).ph = .issue := by
  refine ⟨?_, by decide, by decide, ?_, by decide, by decide⟩ <;>
  · refine ⟨by decide, by decide, by decide, by decide, ?_, by decide, by decide, by decide⟩
    unfold Active; decide

/-- OnlyAcceptAndReset…, CfgHoldsPktMax…: legal instances at both ends of the range, and an event that answers. -/
theorem witness_legal_instances :
    (resetWith 9).params.Legal ∧ (resetWith 63).params.Legal ∧ exec .accept State.reset = .next State.reset :=
  ⟨by decide, by decide, rfl⟩

/-- QuantizerAndFramer…: an event that is no quantizer evaluation, and its next state. -/
theorem witness_framer_event :
    (∀ r g b, Instr.issueFirst ≠ .pack565 r g b ∧ Instr.issueFirst ≠ .pack555 r g b) ∧
    exec .issueFirst beforeFirst = .next firstOut :=
  ⟨fun _ _ _ => ⟨by simp, by simp⟩, rfl⟩

/-- StepRunsTheDecodedEvent and IllegalInstances…: a scheduled word that decodes, one that does not, and an instance out
of range. -/
theorem witness_scheduled_words :
    State.reset.params.Legal ∧
    (State.reset.withFetchWord 8 0xC1).inbox = [{ format := .ctrl, bytes := [0xC1] }] ∧
    decode Params.default { format := .ctrl, bytes := [0xC1] } = .ok .fillFirst ∧
    decode Params.default { format := .ctrl, bytes := [0xC0] } = .error .ctrlNeverEmitted ∧
    ¬ (resetWith 8).params.Legal := by decide

/-- EveryStepKeepsTheInvariant: a step from a state of the invariant; InvariantGives…: such a state. -/
theorem witness_step_from_invariant : Inv beforeFirst ∧ step beforeFirst = .next firstOut :=
  ⟨inv_beforeFirst, rfl⟩

/-- DecodeOfEncode… and EncodeOfDecode…: a well-formed instruction and its word, at the widest CH_W. -/
theorem witness_widest_quantizer_word :
    Params.Legal { pktMax := 63, chW := 32 } ∧
    Instr.wf { pktMax := 63, chW := 32 } (.pack555 0xFFFFFFFF 1 0x80000000) = true ∧
    decode { pktMax := 63, chW := 32 } (encode { pktMax := 63, chW := 32 } (.pack555 0xFFFFFFFF 1 0x80000000)) =
      .ok (.pack555 0xFFFFFFFF 1 0x80000000) := by decide

end Sys2Proof.Tests
end

section
/-! One step's equations by the schedule's first word (00_scope.md R12, log entries 2, 10, 18), and the two scope
obligations. -/

namespace Sys2Proof.Machine

open Sys2Proof

/-- An instance is built exactly where its parameters are in range (00_scope.md R5, R6). -/
theorem isSome_build_iff_legal (pktMax chW : Nat) :
    (Params.build pktMax chW).isSome ↔ Params.Legal { pktMax := pktMax, chW := chW } := by
  unfold Params.build
  split
  · next h => exact iff_of_true rfl h
  · next h => exact iff_of_false Bool.false_ne_true h

theorem popEvent_of_inbox_cons {s : State} {w : EventWord} {rest : List EventWord} (hin : s.inbox = w :: rest) :
    popEvent s = { s with inbox := rest } := by
  simp only [popEvent, hin, List.tail_cons]

theorem step_of_not_legal {s : State} (h : ¬ s.params.Legal) : step s = .refused .illegalInstance :=
  if_neg h

theorem step_of_decode_ok {s : State} {w : EventWord} {rest : List EventWord} {i : Instr} (hl : s.params.Legal)
    (hin : s.inbox = w :: rest) (hd : decode s.params w = .ok i) : step s = exec i (popEvent s) := by
  simp only [step, if_pos hl, hin, hd]

theorem step_of_decode_error {s : State} {w : EventWord} {rest : List EventWord} {e : DecodeError}
    (hl : s.params.Legal) (hin : s.inbox = w :: rest) (hd : decode s.params w = .error e) :
    step s = .refused (.undecodable e) := by
  simp only [step, if_pos hl, hin, hd]

/-- Settles O43: the step's equation for a word that decodes, with the schedule's tail written out. -/
theorem stepRunsTheDecodedEvent : Obligations.StepRunsTheDecodedEvent := by
  intro s w rest i hl hin hd
  rw [step_of_decode_ok hl hin hd, popEvent_of_inbox_cons hin]

/-- Settles O44: each clause is one refusal, of a step on an illegal instance, of building one, and of a step on a word
that stands for no event. -/
theorem illegalInstancesAndWordsAreRefused : Obligations.IllegalInstancesAndWordsAreRefused :=
  ⟨fun _ h => step_of_not_legal h, isSome_build_iff_legal, fun _ _ _ _ hl hin hd => step_of_decode_error hl hin hd⟩

end Sys2Proof.Machine
end

section
/-! The offsets that OFF and PKTIDX count (10_state.md R23, R31, 42_framer.md R157, R158). -/

namespace Sys2Proof.Machine

open Sys2Proof

/-- An accepted record's header fits the least packet budget (41_encoder.md R132, 00_scope.md R5). -/
theorem hdr_length_le_of_enc_ok {c : CmdRecord} {op : Opcode} {hdr pay : Bytes} {g : Bool}
    (h : enc c = .ok op hdr pay g) : hdr.length ≤ 9 := by
  rcases enc_ok_cases h with ⟨-, -, rfl, -⟩ | ⟨-, -, hh, -⟩ | ⟨-, -, hh, -⟩
  · simp
  · omega
  · omega

/-- An accepted record's payload is at most two bytes for each of 0xFFFF * 0xFFFF pixels, so OFF's 33 bits count it
without wrapping (10_state.md R23, R27). -/
theorem pay_length_lt_of_enc_ok {c : CmdRecord} {op : Opcode} {hdr pay : Bytes} {g : Bool}
    (h : enc c = .ok op hdr pay g) : pay.length < 2 ^ 33 := by
  rcases enc_ok_cases h with ⟨-, -, -, hp, -⟩ | ⟨-, -, -, hp, -⟩ | ⟨-, -, -, hp, -⟩
  · omega
  · omega
  · have hpix : c.body.a2.toNat * c.body.a3.toNat ≤ 65535 * 65535 :=
      Nat.mul_le_mul (by omega) (by omega)
    omega

theorem carried_le_pay (M : Nat) (hdr pay : Bytes) (k : Nat) : carried M hdr pay k ≤ pay.length := by
  cases k with
  | zero => exact Nat.zero_le _
  | succ k => exact Nat.min_le_left _ _

theorem carried_one (M : Nat) (hdr pay : Bytes) : carried M hdr pay 1 = firstCount M hdr pay := by
  simp [carried, firstCount]

/-- A continuation packet carries the payload on to the next packet's offset (42_framer.md R153, R158). -/
theorem carried_add_contCount {M k : Nat} {hdr pay : Bytes} (hk : 1 ≤ k) (hlt : carried M hdr pay k < pay.length) :
    carried M hdr pay k + contCount M pay (carried M hdr pay k) = carried M hdr pay (k + 1) := by
  obtain ⟨j, rfl⟩ := Nat.exists_eq_add_of_le' hk
  simp only [carried, contCount, Nat.succ_mul] at hlt ⊢
  omega

/-- Every continuation but the last carries PKT_MAX bytes, 9 at least, which bounds the packet number by the payload's
length (10_state.md R31, 42_framer.md R159). -/
theorem packet_number_lt_of_carried_lt {M k : Nat} {hdr pay : Bytes} (hM : 9 ≤ M)
    (hlt : carried M hdr pay k < pay.length) : 9 * k < pay.length + 9 := by
  cases k with
  | zero => omega
  | succ k =>
    have hk : k * 9 ≤ k * M := Nat.mul_le_mul_left k hM
    simp only [carried] at hlt
    omega

theorem packetAt_of_pos {M k : Nat} {op : Opcode} {hdr pay : Bytes} (hk : 1 ≤ k) :
    packetAt M op hdr pay k = contPacket M op pay (carried M hdr pay k) := by
  obtain ⟨j, rfl⟩ := Nat.exists_eq_add_of_le' hk
  rfl

/-- Packet lengths where the header fits the budget (42_framer.md R160). -/
theorem packetAt_length_bounds {M : Nat} {op : Opcode} {hdr pay : Bytes} (k : Nat) (hM : hdr.length ≤ M) :
    1 ≤ (packetAt M op hdr pay k).length ∧ (packetAt M op hdr pay k).length ≤ M + 1 := by
  cases k with
  | zero =>
    have := firstCount_le_budget M hdr pay
    rw [packetAt, firstPacket_length]
    omega
  | succ k =>
    have := contCount_le_budget M pay (carried M hdr pay (k + 1))
    rw [packetAt, contPacket_length]
    omega

end Sys2Proof.Machine
end

section
/-! The invariant: it holds after reset, every step keeps it, and it gives the spec's items (10_state.md R35). -/

namespace Sys2Proof.Machine

open Sys2Proof

/-- An idle state with the whole payload carried, nothing pending and no fault meets the invariant. -/
theorem inv_of_idle {s : State} (legal : s.params.Legal) (ph : s.ph = .idle) (off : s.off.toNat = s.pay.length)
    (fst : s.first = false) (pend : s.pend = []) (errc : s.errc = .none) : Inv s where
  legal := legal
  idle_values _ := ⟨off, fst⟩
  pend_empty _ := pend
  errc_iff_fault := by simp [ph, errc]
  latched h := by simp [Active, ph] at h
  before_first h := by simp [ph] at h
  before_cont h := by simp [ph] at h
  outstanding h := by simp [ph] at h

/-- A fault state with its code recorded and nothing pending meets the invariant (60_exceptions.md R203). -/
theorem inv_of_fault {s : State} (legal : s.params.Legal) (ph : s.ph = .fault) (pend : s.pend = [])
    (errc : s.errc ≠ .none) : Inv s where
  legal := legal
  idle_values h := by simp [ph] at h
  pend_empty _ := pend
  errc_iff_fault := by simp [ph, errc]
  latched h := by simp [Active, ph] at h
  before_first h := by simp [ph] at h
  before_cont h := by simp [ph] at h
  outstanding h := by simp [ph] at h

section
variable {s : State} (h : Inv s)
include h

/-- The invariant speaks of the elements only, not of the channels and the schedule (20_memory.md R51). -/
theorem Inv.with_channels (offer : Option CmdRecord) (colors : List Color) (events : List EventWord) :
    Inv { s with cmdOffer := offer, qzOut := colors, inbox := events } := by
  cases h
  constructor <;> assumption

theorem Inv.errc_eq_none (ph : s.ph ≠ .fault) : s.errc = .none := by
  by_contra hne
  exact ph (h.errc_iff_fault.mp hne)

theorem Inv.hdr_length_le (active : Active s) : s.hdr.length ≤ 9 :=
  hdr_length_le_of_enc_ok (h.latched active)

theorem Inv.pay_length_lt (active : Active s) : s.pay.length < 2 ^ 33 :=
  pay_length_lt_of_enc_ok (h.latched active)

/-- A command's first packet brings OFF, without wrapping, to what it carries (42_framer.md R152). -/
theorem Inv.toNat_off_afterFirst (ph : s.ph = .issue) :
    (afterFirst s).off.toNat = firstCount s.params.pktMax s.hdr s.pay := by
  have hpay := h.pay_length_lt (.inl ph)
  have hle := firstCount_le_pay s.params.pktMax s.hdr s.pay
  simp only [afterFirst, presentPacket_off, BitVec.toNat_ofNat]
  exact Nat.mod_eq_of_lt (by omega)

/-- A continuation packet moves OFF on, without wrapping, by what it carries (42_framer.md R153). -/
theorem Inv.toNat_off_afterCont (ph : s.ph = .issue) (fst : s.first = false) :
    (afterCont s).off.toNat = s.off.toNat + contCount s.params.pktMax s.pay s.off.toNat := by
  have hpay := h.pay_length_lt (.inl ph)
  obtain ⟨-, -, hlt⟩ := h.before_cont ph fst
  have hle : contCount s.params.pktMax s.pay s.off.toNat ≤ s.pay.length - s.off.toNat := Nat.min_le_left _ _
  simp only [afterCont, presentPacket_off, BitVec.toNat_add, BitVec.toNat_ofNat]
  omega

/-- In PH = WAIT, OFF has not passed the end of the payload (10_state.md R23). -/
theorem Inv.off_le_pay_of_wait (ph : s.ph = .wait) : s.off.toNat ≤ s.pay.length := by
  obtain ⟨-, hoff, -⟩ := h.outstanding ph
  rw [hoff]
  exact carried_le_pay _ _ _ _

/-- An OK result counts the packet without wrapping PKTIDX (10_state.md R31). -/
theorem Inv.toNat_pktidx_answerOk (ph : s.ph = .wait) : (answerOk s).pktidx.toNat = s.pktidx.toNat + 1 := by
  have hpay := h.pay_length_lt (.inr ph)
  obtain ⟨⟨hM, -⟩, -⟩ := h.legal
  obtain ⟨-, -, hcarried, -⟩ := h.outstanding ph
  have hidx : 9 * s.pktidx.toNat < s.pay.length + 9 := by
    rcases hcarried with h0 | hlt
    · omega
    · exact packet_number_lt_of_carried_lt hM hlt
  simp only [answerOk_pktidx, BitVec.toNat_add, BitVec.ofNat_eq_ofNat, BitVec.toNat_ofNat]
  omega

theorem Inv.kept_by_latchCommand_takeOffer (c : CmdRecord) (ph : s.ph = .idle) :
    Inv (latchCommand c (takeOffer s)) := by
  rcases latchCommand_cases c (takeOffer s) with ⟨op, hdr, pay, g, henc, e⟩ | ⟨code, henc, e⟩ <;> rw [e]
  · exact {
      legal := h.legal
      idle_values := by simp
      pend_empty := fun _ => h.pend_empty (by simp [ph])
      errc_iff_fault := by simp
      latched := fun _ => henc
      before_first := by simp
      before_cont := by simp
      outstanding := by simp }
  · refine inv_of_fault h.legal rfl rfl ?_
    rcases enc_bad_cases henc with rfl | rfl <;> simp

/-- The issue of packet number PKTIDX, which brings OFF to the next packet's offset, keeps the invariant
(42_framer.md R152, R153). -/
theorem Inv.kept_by_presentPacket {n : BitVec 33} (ph : s.ph = .issue)
    (hoff : n.toNat = carried s.params.pktMax s.hdr s.pay (s.pktidx.toNat + 1))
    (hidx : s.pktidx.toNat = 0 ∨ carried s.params.pktMax s.hdr s.pay s.pktidx.toNat < s.pay.length) :
    Inv (presentPacket (packetAt s.params.pktMax s.op s.hdr s.pay s.pktidx.toNat) n s) where
  legal := h.legal
  idle_values := by simp
  pend_empty := by simp
  errc_iff_fault := by simp [h.errc_eq_none (by simp [ph])]
  latched _ := h.latched (.inl ph)
  before_first := by simp
  before_cont := by simp
  outstanding _ := ⟨rfl, hoff, hidx, rfl⟩

theorem Inv.kept_by_afterFirst (ph : s.ph = .issue) (fst : s.first = true) : Inv (afterFirst s) := by
  obtain ⟨-, hidx⟩ := h.before_first ph fst
  have hidx : s.pktidx.toNat = 0 := by simp [hidx]
  have hinv := h.kept_by_presentPacket (n := (afterFirst s).off) ph
    (by rw [h.toNat_off_afterFirst ph, hidx, carried_one]) (.inl hidx)
  rw [hidx] at hinv
  exact hinv

theorem Inv.kept_by_afterCont (ph : s.ph = .issue) (fst : s.first = false) : Inv (afterCont s) := by
  obtain ⟨hpos, hoff, hlt⟩ := h.before_cont ph fst
  rw [hoff] at hlt
  have hinv := h.kept_by_presentPacket (n := (afterCont s).off) ph
    (by rw [h.toNat_off_afterCont ph fst, hoff, carried_add_contCount hpos hlt]) (.inr hlt)
  rw [packetAt_of_pos hpos, ← hoff] at hinv
  exact hinv

/-- After an OK result the command is complete, or its next packet is a continuation (42_framer.md R154). -/
theorem Inv.kept_by_answerOk (ph : s.ph = .wait) : Inv (answerOk s) := by
  obtain ⟨hfst, hoff, -, -⟩ := h.outstanding ph
  have herrc : s.errc = .none := h.errc_eq_none (by simp [ph])
  have hidx := h.toNat_pktidx_answerOk ph
  by_cases hend : s.off.toNat = s.pay.length
  · exact inv_of_idle h.legal (if_pos hend) hend hfst rfl herrc
  · have hph : phaseAfterOk s = .issue := if_neg hend
    have hlt : s.off.toNat < s.pay.length := lt_of_le_of_ne (h.off_le_pay_of_wait ph) hend
    exact {
      legal := h.legal
      idle_values := by simp [hph]
      pend_empty := fun _ => rfl
      errc_iff_fault := by simp [hph, herrc]
      latched := fun _ => h.latched (.inr ph)
      before_first := by simp [hfst]
      before_cont := fun _ _ => ⟨by omega, by rw [hidx]; exact hoff, hlt⟩
      outstanding := by simp [hph] }

theorem Inv.kept_by_answerErr : Inv (answerErr s) :=
  inv_of_fault h.legal rfl rfl (by simp)

theorem Inv.kept_by_resetElements : Inv (resetElements s) :=
  inv_of_idle h.legal rfl rfl rfl rfl rfl

/-- Every move of every event keeps the invariant. -/
theorem Inv.kept_by_move {i : Instr} {t : State} (m : Move i s t) : Inv t := by
  cases m with
  | stay => exact h
  | latch c event => exact h.kept_by_latchCommand_takeOffer c event.1
  | stand c => exact h.with_channels (some c) s.qzOut s.inbox
  | first ph fst => exact h.kept_by_afterFirst ph fst
  | cont ph fst => exact h.kept_by_afterCont ph fst
  | ok _ ph => exact h.kept_by_answerOk ph
  | err => exact h.kept_by_answerErr
  | color c => exact h.with_channels s.cmdOffer (s.qzOut ++ [c]) s.inbox
  | reset => exact h.kept_by_resetElements

theorem Inv.kept_by_popEvent : Inv (popEvent s) :=
  h.with_channels s.cmdOffer s.qzOut s.inbox.tail

/-- OFF stays within the payload while a command is in progress (10_state.md R23). -/
theorem Inv.off_le_pay (active : Active s) : s.off.toNat ≤ s.pay.length := by
  rcases active with ph | ph
  · cases fst : s.first with
    | true => simp [(h.before_first ph fst).1]
    | false => exact (h.before_cont ph fst).2.2.le
  · exact h.off_le_pay_of_wait ph

/-- A command in progress has one of the three assigned opcodes (10_state.md R25). -/
theorem Inv.op_assigned (active : Active s) : s.op = 1 ∨ s.op = 2 ∨ s.op = 3 := by
  rcases enc_ok_cases (h.latched active) with ⟨-, hop, -⟩ | ⟨-, hop, -⟩ | ⟨-, hop, -⟩
  · exact .inl hop
  · exact .inr (.inr hop)
  · exact .inr (.inl hop)

/-- The outstanding packet has 1 to PKT_MAX + 1 bytes (10_state.md R35, 42_framer.md R160). -/
theorem Inv.pend_length_bounds (ph : s.ph = .wait) : 1 ≤ s.pend.length ∧ s.pend.length ≤ s.params.pktMax + 1 := by
  obtain ⟨⟨hM, -⟩, -⟩ := h.legal
  obtain ⟨-, -, -, hpend⟩ := h.outstanding ph
  rw [hpend]
  exact packetAt_length_bounds _ ((h.hdr_length_le (.inr ph)).trans hM)

end

/-- Settles O46: the reset state is idle, with an empty payload, nothing pending and no fault. -/
theorem resetStateMeetsTheInvariant : Obligations.ResetStateMeetsTheInvariant :=
  inv_of_idle (by decide) rfl rfl rfl rfl rfl

/-- Settles O47: a step is one move, of the CPE's own or of the scheduled event, and every move keeps the invariant. -/
theorem everyStepKeepsTheInvariant : Obligations.EveryStepKeepsTheInvariant := by
  intro s t h hstep
  obtain ⟨-, ⟨-, i, m⟩ | ⟨w, rest, i, -, -, hexec⟩⟩ := step_cases hstep
  · exact h.kept_by_move m
  · exact h.kept_by_popEvent.kept_by_move (move_of_exec hexec)

/-- Settles O48: each item follows from what the invariant says of the phase it names. -/
theorem invariantGivesTheStatedItems : Obligations.InvariantGivesTheStatedItems := fun s h =>
  { idle_values := fun ph =>
      have ⟨hoff, hfst⟩ := h.idle_values ph
      ⟨hoff, hfst, h.errc_eq_none (by simp [ph])⟩
    active_bounds := fun active => ⟨h.op_assigned active, h.hdr_length_le active, h.legal.1.1, h.off_le_pay active⟩
    cont_remains := fun ph fst => (h.before_cont ph fst).2.2
    pend_length := h.pend_length_bounds
    errc_iff_fault := h.errc_iff_fault }

end Sys2Proof.Machine
end

section
/-! Who writes the latched command, PKTIDX, OFF and CFG (10_state.md R23 to R33). -/

namespace Sys2Proof.Machine

open Sys2Proof

/-- What an accept leaves, whether the encoder takes the record or refuses it (42_framer.md R150). -/
theorem latchCommand_takeOffer_elements (c : CmdRecord) (s : State) :
    let t := latchCommand c (takeOffer s)
    t.cmdl = c ∧ t.pktidx = 0 ∧ (t.ph = .issue ∨ t.ph = .fault) ∧
      (t.ph = .issue → enc c = .ok t.op t.hdr t.pay t.geov) ∧
      (t.ph = .fault → t.geov = false ∧ t.op = s.op ∧ t.hdr = s.hdr ∧ t.pay = s.pay) := by
  rcases latchCommand_cases c (takeOffer s) with ⟨op, hdr, pay, g, henc, e⟩ | ⟨code, henc, e⟩
  · simp [e, henc]
  · simp [e]

/-- In PH = ISSUE only the enabled ISSUE step leads to WAIT (42_framer.md R152, R153). -/
theorem Move.issue_to_wait {i : Instr} {s t : State} (m : Move i s t) (hs : s.ph = .issue) (ht : t.ph = .wait) :
    (s.first = true ∧ t = afterFirst s) ∨ (s.first = false ∧ t = afterCont s) := by
  cases m with
  | stay => simp [hs] at ht
  | latch c event => simp [event.1] at hs
  | stand c => simp [hs] at ht
  | first ph fst => exact .inl ⟨fst, rfl⟩
  | cont ph fst => exact .inr ⟨fst, rfl⟩
  | ok _ ph => simp [ph] at hs
  | err => simp at ht
  | color c => simp [hs] at ht
  | reset => simp at ht

/-- Only an accept leads out of PH = IDLE (42_framer.md R150). -/
theorem Move.leaves_idle {i : Instr} {s t : State} (m : Move i s t) (hs : s.ph = .idle) (ht : t.ph ≠ .idle) :
    ∃ c, Accepts i c s ∧ t = latchCommand c (takeOffer s) := by
  cases m with
  | stay => exact absurd hs ht
  | latch c event => exact ⟨c, event, rfl⟩
  | stand c _ busy => exact absurd hs busy
  | first ph => simp [ph] at hs
  | cont ph => simp [ph] at hs
  | ok _ ph => simp [ph] at hs
  | err _ ph => simp [ph] at hs
  | color c => exact absurd hs ht
  | reset => simp at ht

/-- The only moves that write PKTIDX are the OK result, RESET and an accept (10_state.md R31). -/
theorem Move.pktidx_cases {i : Instr} {s t : State} (m : Move i s t) :
    t.pktidx = s.pktidx ∨ (i = .writeOk ∧ s.ph = .wait) ∨ i = .reset ∨
      ∃ c, Accepts i c s ∧ t = latchCommand c (takeOffer s) := by
  cases m with
  | latch c event => exact .inr (.inr (.inr ⟨c, event, rfl⟩))
  | ok event ph => exact .inr (.inl ⟨event, ph⟩)
  | reset event => exact .inr (.inr (.inl event))
  | stay | stand | first | cont | err | color => exact .inl rfl

/-- WRITE_OK's guard is PH = WAIT alone (42_framer.md R154). -/
theorem exec_writeOk_of_wait {s : State} (ph : s.ph = .wait) : exec .writeOk s = .next (answerOk s) :=
  if_pos ph

theorem not_accepts_writeErr (c : CmdRecord) (s : State) : ¬ Accepts .writeErr c s := by
  simp [Accepts, instrRecord]

/-- Settles O35: the latch move writes the record and the encoder's result, RESET is named, and every other move leaves
the five elements alone. -/
theorem onlyAcceptAndResetWriteTheLatchedCommand : Obligations.OnlyAcceptAndResetWriteTheLatchedCommand := by
  intro i s t hexec
  cases move_of_exec hexec with
  | latch c event =>
    obtain ⟨ph, hevent⟩ := event
    exact .inr (.inr ⟨ph, c, hevent, latchCommand_takeOffer_elements c s⟩)
  | reset event => exact .inr (.inl event)
  | stay | stand | first | cont | ok | err | color => exact .inl ⟨rfl, rfl, rfl, rfl, rfl⟩

/-- Settles O36: the moves that write PKTIDX are the OK result, which counts without wrapping under the invariant,
RESET, and the accept, which alone leads out of IDLE. -/
theorem pktidxCountsTheAnsweredPackets : Obligations.PktidxCountsTheAnsweredPackets := by
  intro i s t h hexec
  have m := move_of_exec hexec
  refine ⟨?_, ?_, ?_, ?_⟩
  · rintro rfl ph
    rw [exec_writeOk_of_wait ph] at hexec
    cases hexec
    exact h.toNat_pktidx_answerOk ph
  · rintro rfl
    rcases m.pktidx_cases with heq | ⟨hi, -⟩ | hi | ⟨c, event, -⟩
    · exact heq
    · cases hi
    · cases hi
    · exact absurd event (not_accepts_writeErr c s)
  · intro hs ht
    obtain ⟨c, -, rfl⟩ := m.leaves_idle hs (by rcases ht with ht | ht <;> simp [ht])
    exact (latchCommand_takeOffer_elements c s).2.1
  · rcases m.pktidx_cases with heq | hok | hreset | ⟨c, ⟨ph, -⟩, rfl⟩
    · exact .inl heq
    · exact .inr (.inl hok)
    · exact .inr (.inr (.inl hreset))
    · obtain ⟨-, hidx, hph, -⟩ := latchCommand_takeOffer_elements c s
      exact .inr (.inr (.inr ⟨ph, by rcases hph with hph | hph <;> simp [hph], hidx⟩))

/-- Settles O37: each of the two ISSUE steps moves OFF on by what its packet carries beside the control byte and, in a
first packet, the header; the invariant after the step bounds OFF by the payload. -/
theorem offCountsTheCarriedPayloadBytes : Obligations.OffCountsTheCarriedPayloadBytes := by
  intro i s t h hexec ht hs
  have m := move_of_exec hexec
  have active : Active t := .inr ht
  have ht' := h.kept_by_move m
  refine ⟨?_, ht'.off_le_pay active, ht'.pay_length_lt active⟩
  rcases m.issue_to_wait hs ht with ⟨fst, rfl⟩ | ⟨fst, rfl⟩
  · have hoff : s.off.toNat = 0 := by simp [(h.before_first hs fst).1]
    have hlen : (afterFirst s).pend.length = 1 + s.hdr.length + firstCount s.params.pktMax s.hdr s.pay :=
      firstPacket_length _ _ _ _
    rw [h.toNat_off_afterFirst hs, hlen, fst, if_pos rfl, hoff]
    omega
  · have hlen : (afterCont s).pend.length = 1 + contCount s.params.pktMax s.pay s.off.toNat :=
      contPacket_length _ _ _ _
    rw [h.toNat_off_afterCont hs fst, hlen, fst, if_neg Bool.false_ne_true]
    omega

theorem toNat_readCfg {s : State} (legal : s.params.Legal) : (readCfg s).toNat = s.params.pktMax := by
  obtain ⟨⟨-, hM⟩, -⟩ := legal
  rw [readCfg, BitVec.toNat_ofNat, Nat.mod_eq_of_lt (by omega)]

/-- Settles O38: PKT_MAX is at most 63, so six bits hold it, and no move changes a parameter. -/
theorem cfgHoldsPktMaxAndNeverChanges : Obligations.CfgHoldsPktMaxAndNeverChanges := by
  intro s legal
  have hcfg := toNat_readCfg legal
  refine ⟨hcfg, ?_, fun i t hexec => ?_⟩
  · obtain ⟨⟨-, hM⟩, -⟩ := legal
    apply BitVec.eq_of_toNat_eq
    rw [BitVec.extractLsb'_toNat, hcfg, Nat.shiftRight_eq_div_pow, Nat.div_eq_of_lt (by omega)]
    rfl
  · have hparams := (move_of_exec hexec).params_eq
    exact ⟨hparams, by rw [readCfg, hparams, readCfg]⟩

end Sys2Proof.Machine
end

section
/-! The framer does not see the colors returned on QZ (10_state.md R37, 40_quantizer.md R100). -/

namespace Sys2Proof.Machine

open Sys2Proof

/-- The operation answers the same next state, but for the colors returned, whatever colors have been returned. -/
def IgnoresColors (f : State → Host.Outcome State Fault Refusal) : Prop :=
  ∀ (s t : State) (cs : List Color), f s = .next t → f { s with qzOut := cs } = .next { t with qzOut := cs }

/-- What ignores the colors returned, returns none itself. -/
theorem IgnoresColors.qzOut_eq {f : State → Host.Outcome State Fault Refusal} (hf : IgnoresColors f) {s t : State}
    (h : f s = .next t) : t.qzOut = s.qzOut := by
  have hsame : f s = .next { t with qzOut := s.qzOut } := hf s t s.qzOut h
  rw [h] at hsame
  injection hsame with hsame
  rw [hsame]

theorem ignoresColors_next {g : State → State}
    (hg : ∀ (s : State) (cs : List Color), g { s with qzOut := cs } = { g s with qzOut := cs }) :
    IgnoresColors fun s => .next (g s) := by
  intro s t cs h
  cases h
  exact congrArg Host.Outcome.next (hg s cs)

theorem ignoresColors_ite {p : State → Prop} [DecidablePred p] {f g : State → Host.Outcome State Fault Refusal}
    (hp : ∀ (s : State) (cs : List Color), p { s with qzOut := cs } ↔ p s) (hf : IgnoresColors f)
    (hg : IgnoresColors g) : IgnoresColors fun s => if p s then f s else g s := by
  intro s t cs h
  by_cases hps : p s
  · simp only [if_pos hps] at h
    simp only [if_pos ((hp s cs).mpr hps)]
    exact hf s t cs h
  · simp only [if_neg hps] at h
    simp only [if_neg (mt (hp s cs).mp hps)]
    exact hg s t cs h

theorem ignoresColors_noStep : IgnoresColors noStep :=
  ignoresColors_next fun _ _ => rfl

theorem ignoresColors_acceptOffer : IgnoresColors acceptOffer := by
  intro s t cs h
  rcases acceptOffer_cases h with ⟨c, ph, hc, rfl⟩ | ⟨hguard, rfl⟩
  · rw [acceptOffer_idle (s := { s with qzOut := cs }) ph hc]
    unfold latchCommand
    cases enc c <;> rfl
  · rcases hguard with ph | hc
    · exact acceptOffer_busy (s := { t with qzOut := cs }) ph
    · simp [acceptOffer, hc, noStep]

theorem ignoresColors_cmdTransaction (c : CmdRecord) : IgnoresColors (cmdTransaction c) :=
  fun s t cs h => ignoresColors_acceptOffer (standOffer c s) t cs h

theorem ignoresColors_issueFirstPacket : IgnoresColors issueFirstPacket :=
  ignoresColors_ite (fun _ _ => Iff.rfl) (ignoresColors_next fun _ _ => rfl) ignoresColors_noStep

theorem ignoresColors_issueContPacket : IgnoresColors issueContPacket :=
  ignoresColors_ite (fun _ _ => Iff.rfl) (ignoresColors_next fun _ _ => rfl) ignoresColors_noStep

theorem ignoresColors_issueFirstOf (op : Opcode) : IgnoresColors (issueFirstOf op) :=
  ignoresColors_ite (fun _ _ => Iff.rfl) ignoresColors_issueFirstPacket ignoresColors_noStep

theorem ignoresColors_issueContOf (op : Opcode) : IgnoresColors (issueContOf op) :=
  ignoresColors_ite (fun _ _ => Iff.rfl) ignoresColors_issueContPacket ignoresColors_noStep

theorem ignoresColors_takeAnswer {effect : State → State}
    (heffect : ∀ (s : State) (cs : List Color), effect { s with qzOut := cs } = { effect s with qzOut := cs }) :
    IgnoresColors (takeAnswer effect) :=
  ignoresColors_ite (fun _ _ => Iff.rfl) (ignoresColors_next heffect) ignoresColors_noStep

/-- Every event but a quantizer evaluation ignores the colors returned. -/
theorem ignoresColors_exec {i : Instr} (hi : ∀ r g b, i ≠ .pack565 r g b ∧ i ≠ .pack555 r g b) :
    IgnoresColors (exec i) := by
  cases i with
  | fill b => exact ignoresColors_cmdTransaction _
  | image b => exact ignoresColors_cmdTransaction _
  | rect b => exact ignoresColors_cmdTransaction _
  | illegalKind k b => exact ignoresColors_cmdTransaction _
  | fillFirst => exact ignoresColors_issueFirstOf 1
  | imageFirst => exact ignoresColors_issueFirstOf 2
  | rectFirst => exact ignoresColors_issueFirstOf 3
  | fillCont => exact ignoresColors_issueContOf 1
  | imageCont => exact ignoresColors_issueContOf 2
  | rectCont => exact ignoresColors_issueContOf 3
  | pack565 r g b => exact absurd rfl (hi r g b).1
  | pack555 r g b => exact absurd rfl (hi r g b).2
  | accept => exact ignoresColors_acceptOffer
  | issueFirst => exact ignoresColors_issueFirstPacket
  | issueCont => exact ignoresColors_issueContPacket
  | writeOk => exact ignoresColors_takeAnswer fun _ _ => rfl
  | writeErr => exact ignoresColors_takeAnswer fun _ _ => rfl
  | reset => exact ignoresColors_next fun _ _ => rfl

/-- Settles O42: every framer event ignores the colors returned, and so returns none. -/
theorem quantizerAndFramerDoNotInfluenceEachOther : Obligations.QuantizerAndFramerDoNotInfluenceEachOther := by
  intro i s t cs hi hexec
  have hignores := ignoresColors_exec hi
  exact ⟨hignores.qzOut_eq hexec, hignores s t cs hexec⟩

end Sys2Proof.Machine
end

section
/-! The values after reset and the fields of STATUS (10_state.md R32, R36). -/

namespace Sys2Proof.Machine

open Sys2Proof

/-- Settles O1: the listed values are those of `State.reset`, and CFG and STATUS are computed from them. -/
theorem resetStateHoldsResetValues : Obligations.ResetStateHoldsResetValues :=
  ⟨rfl, rfl, rfl, rfl, rfl, rfl, rfl, rfl, rfl, rfl, toNat_readCfg (by decide), by decide⟩

theorem readStatus_ph (s : State) : (readStatus s).extractLsb' 0 2 = Phase.code s.ph :=
  BitVec.extractLsb'_append_eq_right

theorem readStatus_first (s : State) : (readStatus s).getLsbD 2 = s.first := by
  unfold readStatus
  rw [BitVec.getLsbD_append, if_neg (by decide), BitVec.getLsbD_append, if_pos (by decide)]
  simp

theorem readStatus_errc (s : State) : (readStatus s).extractLsb' 3 3 = ErrCode.code s.errc := by
  unfold readStatus
  rw [BitVec.extractLsb'_append_eq_of_le (by decide), BitVec.extractLsb'_append_eq_of_le (by decide)]
  exact BitVec.extractLsb'_append_eq_right

theorem readStatus_geov (s : State) : (readStatus s).getLsbD 6 = s.geov := by
  unfold readStatus
  rw [BitVec.getLsbD_append, if_neg (by decide), BitVec.getLsbD_append, if_neg (by decide), BitVec.getLsbD_append,
    if_neg (by decide), BitVec.getLsbD_append, if_pos (by decide)]
  simp

theorem readStatus_zero (s : State) : (readStatus s).extractLsb' 7 9 = 0 := by
  unfold readStatus
  rw [BitVec.extractLsb'_append_eq_of_le (by decide), BitVec.extractLsb'_append_eq_of_le (by decide),
    BitVec.extractLsb'_append_eq_of_le (by decide)]
  exact BitVec.extractLsb'_append_eq_left

/-- Settles O39: the five fields of STATUS one by one; the codes of PH and ERRC are the written-out ones. -/
theorem statusShowsPhaseFirstErrcAndGeov : Obligations.StatusShowsPhaseFirstErrcAndGeov := by
  intro s
  refine ⟨?_, readStatus_first s, ?_, readStatus_geov s, readStatus_zero s⟩
  · rw [readStatus_ph]
    cases s.ph <;> rfl
  · rw [readStatus_errc]
    cases s.errc <;> rfl

end Sys2Proof.Machine
end

section
/-! The decoder undoes the encoder and the encoder the decoder, channel by channel (30_encoding.md R71, R72, R85 to R87;
log entry 4). -/

namespace Sys2Proof

/-! ### Command records -/

/-- The bytes that hold a pixel sequence are that sequence's byte form: no half pixel is left over. -/
theorem pixelBytes_of_pixelsOf {bs : Bytes} {ps : List Color} (h : pixelsOf bs = some ps) : pixelBytes ps = bs := by
  induction bs using pixelsOf.induct generalizing ps with
  | case1 =>
    cases h
    rfl
  | case2 => cases h
  | case3 lo hi rest ih =>
    obtain ⟨qs, hqs, rfl⟩ := Option.map_eq_some_iff.mp h
    simp [pixelBytes, ih hqs]

/-- The kind's byte form has no bit above the kind field. -/
theorem toNat_kindByte_lt (k : Opcode) : (BitVec.setWidth 8 k).toNat < 64 := by
  simp only [BitVec.toNat_setWidth]
  omega

theorem kind_of_kindByte (k : Opcode) : BitVec.setWidth 6 (BitVec.setWidth 8 k) = k := by
  apply BitVec.eq_of_toNat_eq
  simp only [BitVec.toNat_setWidth]
  omega

/-- A kind byte without a bit above the kind field is the byte form of that field. -/
theorem kindByte_of_lt {b : Byte} (h : b.toNat < 64) : BitVec.setWidth 8 (BitVec.setWidth 6 b) = b := by
  apply BitVec.eq_of_toNat_eq
  simp only [BitVec.toNat_setWidth]
  omega

theorem decodeRecord_recordBytes (c : CmdRecord) : decodeRecord (recordBytes c) = .ok c := by
  simp only [recordBytes, decodeRecord, if_pos (toNat_kindByte_lt c.kind), pixelsOf_pixelBytes, joinBytes_split,
    kind_of_kindByte]

theorem recordBytes_of_decodeRecord {bs : Bytes} {c : CmdRecord} (h : decodeRecord bs = .ok c) :
    recordBytes c = bs := by
  unfold decodeRecord at h
  split at h
  · split at h
    · next hkind =>
      split at h
      · next hps =>
        cases h
        simp [recordBytes, kindByte_of_lt hkind, pixelBytes_of_pixelsOf hps]
      · cases h
    · cases h
  · cases h

/-- A CMD transaction goes on the wire as its record. -/
theorem encode_of_instrRecord {i : Instr} {c : CmdRecord} (p : Params) (h : instrRecord i = some c) :
    encode p i = recordEvent c.kind c.body := by
  cases i <;> cases h <;> rfl

/-- The reserved kinds are those of no command (30_encoding.md R75, R85). -/
theorem reserved_iff {k : Opcode} : k.reserved = true ↔ k ≠ 1 ∧ k ≠ 2 ∧ k ≠ 3 := by
  simp only [Opcode.reserved, Bool.or_eq_true, decide_eq_true_eq]
  bv_omega

/-- The kind tells the record's instruction: a well-formed ILLEGAL_KIND record has no command's kind. -/
theorem recordInstr_of_instrRecord {p : Params} {i : Instr} {c : CmdRecord} (hwf : i.wf p = true)
    (h : instrRecord i = some c) : recordInstr c = i := by
  cases i with
  | illegalKind k b =>
    cases h
    obtain ⟨h1, h2, h3⟩ := reserved_iff.mp hwf
    simp only [recordInstr, if_neg h1, if_neg h2, if_neg h3]
  | fill | image | rect =>
    cases h
    rfl
  | _ => cases h

theorem instrRecord_recordInstr (c : CmdRecord) : instrRecord (recordInstr c) = some c := by
  obtain ⟨k, b⟩ := c
  unfold recordInstr
  split_ifs with h1 h2 h3
  · cases h1; rfl
  · cases h2; rfl
  · cases h3; rfl
  · rfl

theorem wf_recordInstr (p : Params) (c : CmdRecord) : (recordInstr c).wf p = true := by
  unfold recordInstr
  split_ifs with h1 h2 h3
  · rfl
  · rfl
  · rfl
  · exact reserved_iff.mpr ⟨h1, h2, h3⟩

theorem decode_recordEvent (p : Params) (c : CmdRecord) :
    decode p (recordEvent c.kind c.body) = .ok (recordInstr c) := by
  simp only [decode, recordEvent, decodeRecord_recordBytes]

/-- A well-formed CMD transaction is read back from its record. -/
theorem decode_encode_of_instrRecord {p : Params} {i : Instr} {c : CmdRecord} (hwf : i.wf p = true)
    (h : instrRecord i = some c) : decode p (encode p i) = .ok i := by
  rw [encode_of_instrRecord p h, decode_recordEvent, recordInstr_of_instrRecord hwf h]

/-- What the record channel reads is a record's instruction. -/
theorem decode_cmdRecord_ok {p : Params} {bs : Bytes} {i : Instr}
    (h : decode p { format := .cmdRecord, bytes := bs } = .ok i) :
    ∃ c, decodeRecord bs = .ok c ∧ recordInstr c = i := by
  cases hc : decodeRecord bs with
  | ok c => exact ⟨c, rfl, by simpa [decode, hc] using h⟩
  | error e => simp [decode, hc] at h

/-! ### Control bytes and step events -/

/-- The control bytes that decode, each with its row (30_encoding.md section 7). -/
theorem decodeCtrl_ok_cases {b : Byte} {i : Instr} (h : decodeCtrl b = .ok i) :
    (b = 0xC1 ∧ i = .fillFirst) ∨ (b = 0xC2 ∧ i = .imageFirst) ∨ (b = 0xC3 ∧ i = .rectFirst) ∨
      (b = 0x01 ∧ i = .fillCont) ∨ (b = 0x02 ∧ i = .imageCont) ∨ (b = 0x03 ∧ i = .rectCont) := by
  unfold decodeCtrl at h
  split_ifs at h <;> cases h <;> simp_all only [true_or, or_true, and_self]

/-- The step codes that decode, each with its row (log entry 4). -/
theorem decodeStep_ok_cases {b : Byte} {i : Instr} (h : decodeStep b = .ok i) :
    (b = 0 ∧ i = .accept) ∨ (b = 1 ∧ i = .issueFirst) ∨ (b = 2 ∧ i = .issueCont) ∨
      (b = 3 ∧ i = .writeOk) ∨ (b = 4 ∧ i = .writeErr) ∨ (b = 5 ∧ i = .reset) := by
  unfold decodeStep at h
  split_ifs at h <;> cases h <;> simp_all only [true_or, or_true, and_self]

theorem wf_and_encode_of_decodeCtrl (p : Params) {b : Byte} {i : Instr} (h : decodeCtrl b = .ok i) :
    i.wf p = true ∧ encode p i = ctrlEvent b := by
  rcases decodeCtrl_ok_cases h with h | h | h | h | h | h <;> obtain ⟨rfl, rfl⟩ := h <;> exact ⟨rfl, rfl⟩

theorem wf_and_encode_of_decodeStep (p : Params) {b : Byte} {i : Instr} (h : decodeStep b = .ok i) :
    i.wf p = true ∧ encode p i = stepEvent b := by
  rcases decodeStep_ok_cases h with h | h | h | h | h | h <;> obtain ⟨rfl, rfl⟩ := h <;> exact ⟨rfl, rfl⟩

/-- A control byte event is one byte. -/
theorem decode_ctrl_ok {p : Params} {bs : Bytes} {i : Instr}
    (h : decode p { format := .ctrl, bytes := bs } = .ok i) : ∃ b, bs = [b] ∧ decodeCtrl b = .ok i := by
  match bs, h with
  | [b], h => exact ⟨b, rfl, h⟩

/-- A step event is one byte. -/
theorem decode_step_ok {p : Params} {bs : Bytes} {i : Instr}
    (h : decode p { format := .step, bytes := bs } = .ok i) : ∃ b, bs = [b] ∧ decodeStep b = .ok i := by
  match bs, h with
  | [b], h => exact ⟨b, rfl, h⟩

/-! ### Quantizer words -/

/-- Writing out the number that bytes hold, in as many bytes, gives them back. -/
theorem natBytes_bytesNat (bs : Bytes) : natBytes bs.length (bytesNat bs) = bs := by
  induction bs with
  | nil => rfl
  | cons b bs ih =>
    have hhead : BitVec.ofNat 8 (b.toNat + 256 * bytesNat bs) = b := by
      apply BitVec.eq_of_toNat_eq
      rw [BitVec.toNat_ofNat]
      omega
    have htail : (b.toNat + 256 * bytesNat bs) / 256 = bytesNat bs := by omega
    simp only [List.length_cons, bytesNat, natBytes, hhead, htail, ih]

/-- The bytes of a quantizer word have room for QMODE and its three inputs. -/
theorem two_pow_le_qzLength (w : Nat) : 2 ^ (1 + 3 * w) ≤ 256 ^ qzLength w := by
  rw [show 256 = 2 ^ 8 from rfl, ← Nat.pow_mul]
  refine Nat.pow_le_pow_right (by decide) ?_
  unfold qzLength
  omega

/-- The instruction that a quantizer word's number stands for (30_encoding.md R86, R87): QMODE at bit 0, then the
inputs. -/
def qzInstr (w v : Nat) : Instr :=
  let r := BitVec.ofNat 32 (v / 2 % 2 ^ w)
  let g := BitVec.ofNat 32 (v / 2 / 2 ^ w % 2 ^ w)
  let b := BitVec.ofNat 32 (v / 2 / 2 ^ w / 2 ^ w % 2 ^ w)
  if v % 2 = 0 then .pack565 r g b else .pack555 r g b

/-- A quantizer word decodes exactly where it has the right length and no bit above its last input. -/
theorem decodeQz_eq_ok_iff {w : Nat} {bs : Bytes} {i : Instr} :
    decodeQz w bs = .ok i ↔
      bs.length = qzLength w ∧ bytesNat bs < 2 ^ (1 + 3 * w) ∧ qzInstr w (bytesNat bs) = i := by
  unfold decodeQz
  by_cases hlen : bs.length = qzLength w
  · by_cases hlt : bytesNat bs < 2 ^ (1 + 3 * w)
    · simp only [hlen, hlt, if_true, true_and, qzInstr]
      split_ifs <;> simp only [Except.ok.injEq]
    · simp [hlen, hlt]
  · simp [hlen]

/-- A low digit below `m` and what stands above it below `n` stay below `m * n`. -/
theorem add_mul_lt_mul {a b m n : Nat} (ha : a < m) (hb : b < n) : a + m * b < m * n :=
  calc
    a + m * b < m + m * b := by omega
    _ = m * (b + 1) := by rw [Nat.mul_succ, Nat.add_comm]
    _ ≤ m * n := Nat.mul_le_mul_left m hb

theorem two_pow_qzBits (w : Nat) : 2 ^ (1 + 3 * w) = 2 * (2 ^ w * (2 ^ w * 2 ^ w)) := by
  ring

section
variable {w mode r g b : Nat} (hmode : mode < 2) (hr : r < 2 ^ w) (hg : g < 2 ^ w) (hb : b < 2 ^ w)
include hmode hr hg hb

/-- QMODE and three inputs take `1 + 3 * w` bits. -/
theorem qzNat_lt : qzNat w mode r g b < 2 ^ (1 + 3 * w) := by
  rw [two_pow_qzBits]
  exact add_mul_lt_mul hmode (add_mul_lt_mul hr (add_mul_lt_mul hg hb))

/-- The fields of a quantizer word, read where the decoder reads them. -/
theorem qzNat_fields :
    qzNat w mode r g b % 2 = mode ∧ qzNat w mode r g b / 2 % 2 ^ w = r ∧
      qzNat w mode r g b / 2 / 2 ^ w % 2 ^ w = g ∧ qzNat w mode r g b / 2 / 2 ^ w / 2 ^ w % 2 ^ w = b := by
  have hW : 0 < 2 ^ w := Nat.two_pow_pos w
  simp [qzNat, Nat.add_mul_mod_self_left, Nat.add_mul_div_left, Nat.mod_eq_of_lt, Nat.div_eq_of_lt, hW, hmode, hr, hg,
    hb]

end

/-- A number of `1 + 3 * w` bits is made of its fields: no bit is dropped. -/
theorem qzNat_of_fields {w v : Nat} (h : v < 2 ^ (1 + 3 * w)) :
    qzNat w (v % 2) (v / 2 % 2 ^ w) (v / 2 / 2 ^ w % 2 ^ w) (v / 2 / 2 ^ w / 2 ^ w % 2 ^ w) = v := by
  have htop : v / 2 / 2 ^ w / 2 ^ w < 2 ^ w := by
    rw [two_pow_qzBits] at h
    exact Nat.div_lt_of_lt_mul (Nat.div_lt_of_lt_mul (Nat.div_lt_of_lt_mul h))
  rw [qzNat, Nat.mod_eq_of_lt htop, Nat.mod_add_div, Nat.mod_add_div, Nat.mod_add_div]

/-- The 32 bits of an input hold what CH_W wires carry (00_scope.md R6). -/
theorem toNat_input_of_lt {w x : Nat} (hw : w ≤ 32) (hx : x < 2 ^ w) : (BitVec.ofNat 32 x).toNat = x := by
  rw [BitVec.toNat_ofNat]
  exact Nat.mod_eq_of_lt (Nat.lt_of_lt_of_le hx (Nat.pow_le_pow_right (by decide) hw))

theorem carries_iff {p : Params} {v : ChannelValue} : p.carries v = true ↔ v.toNat < 2 ^ p.chW :=
  decide_eq_true_iff

theorem decodeQz_natBytes {w v : Nat} (h : v < 2 ^ (1 + 3 * w)) :
    decodeQz w (natBytes (qzLength w) v) = .ok (qzInstr w v) := by
  have hv : bytesNat (natBytes (qzLength w) v) = v := by
    rw [bytesNat_natBytes]
    exact Nat.mod_eq_of_lt (Nat.lt_of_lt_of_le h (two_pow_le_qzLength w))
  exact decodeQz_eq_ok_iff.mpr ⟨natBytes_length _ _, by rwa [hv], by rw [hv]⟩

/-- A quantizer evaluation whose inputs fit CH_W bits is read back from its word. -/
theorem decode_qzEvent {p : Params} {mode : Nat} {r g b : ChannelValue} (hmode : mode < 2)
    (h : (p.carries r && p.carries g && p.carries b) = true) :
    decode p (qzEvent p.chW mode r g b) = .ok (if mode = 0 then .pack565 r g b else .pack555 r g b) := by
  simp only [Bool.and_eq_true, carries_iff] at h
  obtain ⟨⟨hr, hg⟩, hb⟩ := h
  obtain ⟨fmode, fr, fg, fb⟩ := qzNat_fields hmode hr hg hb
  refine (decodeQz_natBytes (qzNat_lt hmode hr hg hb)).trans ?_
  simp only [qzInstr, fmode, fr, fg, fb, BitVec.ofNat_toNat, BitVec.setWidth_eq]

/-- What a quantizer word's number stands for is well formed where CH_W is legal, and its word is that number's. -/
theorem wf_and_encode_qzInstr {p : Params} {v : Nat} (hp : p.Legal) (h : v < 2 ^ (1 + 3 * p.chW)) :
    (qzInstr p.chW v).wf p = true ∧
      encode p (qzInstr p.chW v) = { format := .qz, bytes := natBytes (qzLength p.chW) v } := by
  obtain ⟨-, -, hw⟩ := hp
  have hinput (x : Nat) : (BitVec.ofNat 32 (x % 2 ^ p.chW)).toNat = x % 2 ^ p.chW :=
    toNat_input_of_lt hw (Nat.mod_lt x (Nat.two_pow_pos _))
  have hcarries (x : Nat) : p.carries (BitVec.ofNat 32 (x % 2 ^ p.chW)) = true := by
    rw [carries_iff, hinput]
    exact Nat.mod_lt x (Nat.two_pow_pos _)
  have hfields := qzNat_of_fields h
  unfold qzInstr
  split
  · next hmode =>
    rw [hmode] at hfields
    simp only [Instr.wf, encode, qzEvent, hcarries, hinput, hfields, Bool.and_self, and_self]
  · next hmode =>
    rw [Nat.mod_two_ne_zero.mp hmode] at hfields
    simp only [Instr.wf, encode, qzEvent, hcarries, hinput, hfields, Bool.and_self, and_self]

/-! ### The obligations -/

/-- Settles O50: a record is read back by its kind, a control byte and a step code by the decoder's own table, and a
quantizer word by its fields. -/
theorem decodeOfEncodeIsTheInstruction : Obligations.DecodeOfEncodeIsTheInstruction := by
  intro p i _ hwf
  cases i with
  | fill | image | rect | illegalKind => exact decode_encode_of_instrRecord hwf rfl
  | pack565 r g b => exact decode_qzEvent (mode := 0) (by decide) hwf
  | pack555 r g b => exact decode_qzEvent (mode := 1) (by decide) hwf
  | _ => rfl

/-- Settles O51: channel by channel, what the decoder reads is rebuilt from the bytes it was read from. -/
theorem encodeOfDecodeIsTheWord : Obligations.EncodeOfDecodeIsTheWord := by
  rintro p ⟨format, bs⟩ i hp h
  cases format with
  | cmdRecord =>
    obtain ⟨c, hc, rfl⟩ := decode_cmdRecord_ok h
    refine ⟨wf_recordInstr p c, ?_⟩
    rw [encode_of_instrRecord p (instrRecord_recordInstr c), ← recordBytes_of_decodeRecord hc, recordEvent]
  | ctrl =>
    obtain ⟨b, rfl, hb⟩ := decode_ctrl_ok h
    exact wf_and_encode_of_decodeCtrl p hb
  | qz =>
    obtain ⟨hlen, hlt, rfl⟩ := decodeQz_eq_ok_iff.mp h
    obtain ⟨hwf, henc⟩ := wf_and_encode_qzInstr hp hlt
    refine ⟨hwf, ?_⟩
    rw [henc, ← hlen, natBytes_bytesNat]
  | step =>
    obtain ⟨b, rfl, hb⟩ := decode_step_ok h
    exact wf_and_encode_of_decodeStep p hb

/-- Settles O52: each word is evaluated. -/
theorem writtenOutWordsDecode : Obligations.WrittenOutWordsDecode :=
  ⟨rfl, rfl, rfl, rfl, rfl, rfl, rfl, rfl⟩

/-- Settles O53: the decoder's table has these six bytes, and each has its row. -/
theorem noOtherControlByteDecodes : Obligations.NoOtherControlByteDecodes := by
  intro p b
  constructor
  · rintro ⟨i, h⟩
    rcases decodeCtrl_ok_cases h with ⟨hb, -⟩ | ⟨hb, -⟩ | ⟨hb, -⟩ | ⟨hb, -⟩ | ⟨hb, -⟩ | ⟨hb, -⟩ <;> simp [hb]
  · rintro (rfl | rfl | rfl | rfl | rfl | rfl) <;> exact ⟨_, rfl⟩

end Sys2Proof
end

section
/-! The control bytes that packets open with (30_encoding.md R70 to R75, section 7). -/

namespace Sys2Proof.Machine

open Sys2Proof

/-! ### The three fields -/

@[simp] theorem ctrlStart_firstCtrl (op : Opcode) : ctrlStart (firstCtrl op) = true := by
  simp [ctrlStart, firstCtrl]

@[simp] theorem ctrlClear_firstCtrl (op : Opcode) : ctrlClear (firstCtrl op) = true := by
  simp [ctrlClear, firstCtrl]

@[simp] theorem ctrlStart_contCtrl (op : Opcode) : ctrlStart (contCtrl op) = false := by
  simp [ctrlStart, contCtrl]

@[simp] theorem ctrlClear_contCtrl (op : Opcode) : ctrlClear (contCtrl op) = false := by
  simp [ctrlClear, contCtrl]

@[simp] theorem ctrlOpc_contCtrl (op : Opcode) : ctrlOpc (contCtrl op) = op := by
  apply BitVec.eq_of_toNat_eq
  simp only [ctrlOpc, contCtrl, BitVec.extractLsb'_toNat, BitVec.toNat_setWidth, Nat.shiftRight_zero]
  omega

/-- START and CLEAR stand above the opcode field, which they leave as it is. -/
@[simp] theorem ctrlOpc_firstCtrl (op : Opcode) : ctrlOpc (firstCtrl op) = op := by
  have hsplit : ctrlOpc (firstCtrl op) = ctrlOpc 0xC0#8 ||| ctrlOpc (contCtrl op) := BitVec.extractLsb'_or
  rw [hsplit, ctrlOpc_contCtrl, show ctrlOpc 0xC0#8 = 0#6 from rfl, BitVec.zero_or]

/-- Settles O21: the six fields one by one. -/
theorem controlBytesCarryTheirThreeFields : Obligations.ControlBytesCarryTheirThreeFields := fun op =>
  ⟨ctrlStart_firstCtrl op, ctrlClear_firstCtrl op, ctrlOpc_firstCtrl op, ctrlStart_contCtrl op,
    ctrlClear_contCtrl op, ctrlOpc_contCtrl op⟩

/-! ### The ISSUE steps of one opcode -/

theorem issueFirstPacket_of_issue {s : State} (ph : s.ph = .issue) (fst : s.first = true) :
    issueFirstPacket s = .next (afterFirst s) :=
  if_pos ⟨ph, fst⟩

theorem issueContPacket_of_issue {s : State} (ph : s.ph = .issue) (fst : s.first = false) :
    issueContPacket s = .next (afterCont s) :=
  if_pos ⟨ph, fst⟩

theorem issueFirstOf_of_issue {s : State} {op : Opcode} (hop : s.op = op) (ph : s.ph = .issue)
    (fst : s.first = true) : issueFirstOf op s = .next (afterFirst s) := by
  rw [issueFirstOf, if_pos hop, issueFirstPacket_of_issue ph fst]

theorem issueContOf_of_issue {s : State} {op : Opcode} (hop : s.op = op) (ph : s.ph = .issue)
    (fst : s.first = false) : issueContOf op s = .next (afterCont s) := by
  rw [issueContOf, if_pos hop, issueContPacket_of_issue ph fst]

/-- Where FIRST = 0 already, presenting a packet does not write it (42_framer.md R153). -/
theorem presentPacket_of_not_first {s : State} (p : Bytes) (n : BitVec 33) (fst : s.first = false) :
    presentPacket p n s = { s with off := n, pend := p, ph := .wait, pktOut := s.pktOut ++ [p] } := by
  simp only [presentPacket, fst]

/-- Settles O17: under its guard each row is the issue of the first packet, whose control byte is the row's. -/
theorem firstPacketRowsIssueTheirControlByte : Obligations.FirstPacketRowsIssueTheirControlByte := by
  intro s n0 body ph fst hn0 hbody
  have issued {op : Opcode} {ctrl : Byte} (hop : s.op = op) (hctrl : firstCtrl op = ctrl) :
      issueFirstOf op s = .next (presentPacket (ctrl :: body) (BitVec.ofNat 33 n0) s) := by
    rw [issueFirstOf_of_issue hop ph fst, afterFirst, firstPacket, firstCount, hop, hctrl, hbody, hn0]
  exact ⟨fun hop => issued hop rfl, fun hop => issued hop rfl, fun hop => issued hop rfl⟩

/-- Settles O18: under its guard each row is the issue of a continuation packet, whose control byte is the row's. -/
theorem continuationRowsIssueTheirControlByte : Obligations.ContinuationRowsIssueTheirControlByte := by
  intro s n body ph fst hn hbody
  have issued {op : Opcode} {ctrl : Byte} (hop : s.op = op) (hctrl : contCtrl op = ctrl) :
      issueContOf op s = .next { s with
        off := s.off + BitVec.ofNat 33 n, pend := ctrl :: body, ph := .wait
        pktOut := s.pktOut ++ [ctrl :: body] } := by
    rw [issueContOf_of_issue hop ph fst, afterCont, presentPacket_of_not_first _ _ fst, contPacket, contCount, hop,
      hctrl, hbody, hn]
  exact ⟨fun hop => issued hop rfl, fun hop => issued hop rfl, fun hop => issued hop rfl⟩

/-! ### What is emitted -/

/-- Only the enabled ISSUE step presents a packet (20_memory.md R52). -/
theorem Move.pktOut_cases {i : Instr} {s t : State} (m : Move i s t) :
    t.pktOut = s.pktOut ∨ (s.ph = .issue ∧ s.first = true ∧ t = afterFirst s) ∨
      (s.ph = .issue ∧ s.first = false ∧ t = afterCont s) := by
  cases m with
  | first ph fst => exact .inr (.inl ⟨ph, fst, rfl⟩)
  | cont ph fst => exact .inr (.inr ⟨ph, fst, rfl⟩)
  | latch c =>
    rcases latchCommand_cases c (takeOffer s) with ⟨_, _, _, _, _, e⟩ | ⟨_, _, e⟩ <;> exact .inl (by simp [e])
  | stay | stand | ok | err | color | reset => exact .inl rfl

/-- A continuation is due only where the payload does not fit the first packet's budget (42_framer.md R157). -/
theorem Inv.first_budget_lt_of_cont {s : State} (h : Inv s) (ph : s.ph = .issue) (fst : s.first = false) :
    s.params.pktMax - s.hdr.length < s.pay.length := by
  obtain ⟨hpos, hoff, hlt⟩ := h.before_cont ph fst
  obtain ⟨k, hk⟩ := Nat.exists_eq_add_of_le' hpos
  rw [hoff, hk, carried] at hlt
  omega

/-- FILL never has a continuation, and RECT only where PKT_MAX < 11 (30_encoding.md section 7, 42_framer.md R164). -/
theorem Inv.op_of_cont {s : State} (h : Inv s) (ph : s.ph = .issue) (fst : s.first = false) :
    s.op = 2 ∨ (s.op = 3 ∧ s.params.pktMax < 11) := by
  have hbudget := h.first_budget_lt_of_cont ph fst
  obtain ⟨⟨hM, -⟩, -⟩ := h.legal
  rcases enc_ok_cases (h.latched (.inl ph)) with ⟨-, -, hhdr, hpay, -⟩ | ⟨-, hop, hhdr, hpay, -⟩ | ⟨-, hop, -⟩
  · rw [hhdr, hpay, List.length_nil] at hbudget
    omega
  · exact .inr ⟨hop, by omega⟩
  · exact .inl hop

/-- Settles O30: a packet presented is a first packet of one of the three opcodes, or a continuation of an opcode that
has one. -/
theorem onlyTheListedControlBytesAreEmitted : Obligations.OnlyTheListedControlBytesAreEmitted := by
  intro i s t h hexec p hp
  rcases (move_of_exec hexec).pktOut_cases with hout | ⟨ph, -, rfl⟩ | ⟨ph, fst, rfl⟩
  · exact .inl (hout ▸ hp)
  · rw [afterFirst, presentPacket_pktOut, List.mem_append, List.mem_singleton] at hp
    refine hp.imp_right fun hp => ⟨firstCtrl s.op, _, hp, ?_⟩
    rcases h.op_assigned (.inl ph) with hop | hop | hop <;> rw [hop]
    · exact .inl rfl
    · exact .inr (.inl rfl)
    · exact .inr (.inr (.inl rfl))
  · rw [afterCont, presentPacket_pktOut, List.mem_append, List.mem_singleton] at hp
    refine hp.imp_right fun hp => ⟨contCtrl s.op, _, hp, ?_⟩
    rcases h.op_of_cont ph fst with hop | ⟨hop, hM⟩ <;> rw [hop]
    · exact .inr (.inr (.inr (.inl rfl)))
    · exact .inr (.inr (.inr (.inr ⟨rfl, hM⟩)))

end Sys2Proof.Machine
end

section
/-! The color words of the quantizer (30_encoding.md R78, 40_quantizer.md R100 to R106). -/

namespace Sys2Proof.Machine

open Sys2Proof

/-- The three clamped fields do not overlap, so the word is their sum, each at its place. -/
theorem toNat_pack565Color (r g b : Nat) :
    (pack565Color r g b).toNat = min r 31 + min g 63 * 2 ^ 5 + min b 31 * 2 ^ 11 := by
  have hgreen : min r 31 ||| min g 63 <<< 5 = min g 63 <<< 5 + min r 31 :=
    (Nat.or_comm ..).trans (Nat.shiftLeft_add_eq_or_of_lt (by omega) _).symm
  have hblue : min g 63 <<< 5 + min r 31 ||| min b 31 <<< 11 = min b 31 <<< 11 + (min g 63 <<< 5 + min r 31) :=
    (Nat.or_comm ..).trans (Nat.shiftLeft_add_eq_or_of_lt (by omega) _).symm
  rw [pack565Color, clamp, clamp, clamp, hgreen, hblue, BitVec.toNat_ofNat, Nat.mod_eq_of_lt (by omega)]
  omega

theorem pack565Color_red (r g b : Nat) : ((pack565Color r g b).extractLsb' 0 5).toNat = min r 31 := by
  rw [BitVec.extractLsb'_toNat, toNat_pack565Color, Nat.shiftRight_eq_div_pow]
  omega

theorem pack565Color_green (r g b : Nat) : ((pack565Color r g b).extractLsb' 5 6).toNat = min g 63 := by
  rw [BitVec.extractLsb'_toNat, toNat_pack565Color, Nat.shiftRight_eq_div_pow]
  omega

theorem pack565Color_blue (r g b : Nat) : ((pack565Color r g b).extractLsb' 11 5).toNat = min b 31 := by
  rw [BitVec.extractLsb'_toNat, toNat_pack565Color, Nat.shiftRight_eq_div_pow]
  omega

/-- 40_quantizer.md R103, in its equivalent form. -/
theorem pack555Color_eq_pack565Color (r g b : Nat) : pack555Color r g b = pack565Color r (2 * g) b := rfl

theorem exec_pack565 (r g b : ChannelValue) (s : State) :
    exec (.pack565 r g b) s = .next (returnColor (pack565Color r.toNat g.toNat b.toNat) s) := rfl

theorem exec_pack555 (r g b : ChannelValue) (s : State) :
    exec (.pack555 r g b) s = .next (returnColor (pack555Color r.toNat g.toNat b.toNat) s) := rfl

/-- Settles O40: the color is the 5-6-5 word of the inputs, read field by field. -/
theorem pack565ReturnsTheClampedChannels : Obligations.Pack565ReturnsTheClampedChannels := fun r g b =>
  ⟨pack565Color r.toNat g.toNat b.toNat, pack565Color_red _ _ _, pack565Color_green _ _ _, pack565Color_blue _ _ _,
    exec_pack565 r g b⟩

/-- Settles O41: the color is the 5-6-5 word with twice the green, read field by field. -/
theorem pack555ReturnsTheDoubledGreen : Obligations.Pack555ReturnsTheDoubledGreen := fun r g b =>
  ⟨pack565Color r.toNat (2 * g.toNat) b.toNat, pack565Color_red _ _ _, pack565Color_green _ _ _,
    pack565Color_blue _ _ _, rfl, fun s => by rw [exec_pack555, pack555Color_eq_pack565Color, returnColor]⟩

end Sys2Proof.Machine
end

section
/-! What the encoder answers for each kind, and the accept of each record in PH = IDLE (41_encoder.md R121 to R132,
42_framer.md R150). -/

namespace Sys2Proof.Machine

open Sys2Proof

/-! ### Enc by kind -/

theorem enc_fill (b : CmdBody) : enc { kind := 1, body := b } = encFill b := rfl

theorem enc_rect (b : CmdBody) : enc { kind := 3, body := b } = encRect b := rfl

theorem enc_image (b : CmdBody) : enc { kind := 2, body := b } = encImage b := rfl

theorem enc_of_reserved {c : CmdRecord} (h : c.kind.reserved = true) : enc c = .bad .illegalKind := by
  obtain ⟨hfill, himage, hrect⟩ := reserved_iff.mp h
  rw [enc, if_neg hfill, if_neg hrect, if_neg himage]

theorem pixLengthOk_iff {b : CmdBody} : pixLengthOk b = true ↔ b.pix.length = b.a2.toNat * b.a3.toNat :=
  decide_eq_true_iff

theorem encImage_of_pix_length_eq {b : CmdBody} (h : b.pix.length = b.a2.toNat * b.a3.toNat) :
    encImage b = .ok 2 (le16 b.a0 ++ le16 b.a1 ++ le16 b.a2 ++ le16 b.a3 ++ [b.blend]) (b.pix.flatMap le16) false :=
  if_pos (pixLengthOk_iff.mpr h)

theorem encImage_of_pix_length_ne {b : CmdBody} (h : b.pix.length ≠ b.a2.toNat * b.a3.toNat) :
    encImage b = .bad .pixLen :=
  if_neg (mt pixLengthOk_iff.mp h)

/-- The far edge's 16 bits are the sum modulo 65536 (41_encoder.md R128). -/
theorem farEdge_eq_ofNat_mod (edge size : Geom) :
    farEdge edge size = BitVec.ofNat 16 ((edge.toNat + size.toNat) % 65536) := by
  apply BitVec.eq_of_toNat_eq
  rw [farEdge, edgeSum, BitVec.toNat_ofNat, BitVec.toNat_ofNat, Nat.mod_mod]

theorem rectWraps_eq_decide (b : CmdBody) :
    rectWraps b = decide (b.a0.toNat + b.a2.toNat > 0xFFFF ∨ b.a1.toNat + b.a3.toNat > 0xFFFF) :=
  (Bool.decide_or _ _).symm

/-- Pixel `i` stands at bytes `2 * i` and `2 * i + 1` of the payload, low byte first (41_encoder.md R123). -/
theorem flatMap_le16_getElem? {ps : List Color} {i : Nat} {c : Color} (h : ps[i]? = some c) :
    (ps.flatMap le16)[2 * i]? = some (c.extractLsb' 0 8) ∧
      (ps.flatMap le16)[2 * i + 1]? = some (c.extractLsb' 8 8) := by
  induction ps generalizing i with
  | nil => simp at h
  | cons p ps ih =>
    cases i with
    | zero =>
      cases h
      exact ⟨rfl, rfl⟩
    | succ i => exact ih h

/-! ### The accept -/

/-- A CMD transaction in PH = IDLE latches its record, whichever row it is of (42_framer.md R150). -/
theorem exec_of_instrRecord_idle {i : Instr} {c : CmdRecord} {s : State} (hi : instrRecord i = some c)
    (ph : s.ph = .idle) : exec i s = .next (latchCommand c (takeOffer s)) := by
  cases i with
  | fill | image | rect | illegalKind =>
    cases hi
    exact cmdTransaction_idle _ ph
  | _ => cases hi

theorem latchCommand_of_enc_ok {c : CmdRecord} {op : Opcode} {hdr pay : Bytes} {g : Bool}
    (h : enc c = .ok op hdr pay g) (s : State) : latchCommand c s = latchOk c op hdr pay g s := by
  simp only [latchCommand, h]

theorem latchCommand_of_enc_bad {c : CmdRecord} {code : ErrCode} (h : enc c = .bad code) (s : State) :
    latchCommand c s = latchBad c code s := by
  simp only [latchCommand, h]

theorem exec_of_enc_ok {i : Instr} {c : CmdRecord} {op : Opcode} {hdr pay : Bytes} {g : Bool} {s : State}
    (hi : instrRecord i = some c) (ph : s.ph = .idle) (h : enc c = .ok op hdr pay g) :
    exec i s = .next (latchOk c op hdr pay g (takeOffer s)) := by
  rw [exec_of_instrRecord_idle hi ph, latchCommand_of_enc_ok h]

theorem exec_of_enc_bad {i : Instr} {c : CmdRecord} {code : ErrCode} {s : State} (hi : instrRecord i = some c)
    (ph : s.ph = .idle) (h : enc c = .bad code) : exec i s = .next (latchBad c code (takeOffer s)) := by
  rw [exec_of_instrRecord_idle hi ph, latchCommand_of_enc_bad h]

/-! ### A payload within the first packet's budget -/

theorem contPackets_of_pay_length_le {M : Nat} {op : Opcode} {pay : Bytes} {off : Nat} (h : pay.length ≤ off)
    (fuel : Nat) : contPackets M op pay fuel off = [] := by
  cases fuel with
  | zero => rfl
  | succ fuel => exact if_neg h.not_gt

/-- A payload within the first packet's budget makes a command of one packet (42_framer.md R157, R158). -/
theorem frame_of_pay_length_le {M : Nat} {op : Opcode} {hdr pay : Bytes} (h : pay.length ≤ M - hdr.length) :
    frame M op hdr pay = [firstCtrl op :: (hdr ++ pay)] := by
  have hall : firstCount M hdr pay = pay.length := Nat.min_eq_left h
  rw [frame, firstPacket, hall, List.take_length, contPackets_of_pay_length_le le_rfl]

/-! ### The obligations -/

/-- Settles O6: Enc answers the written-out header and the pixels' bytes; without pixels the payload is empty, so the
first packet holds the command. -/
theorem imageIsAcceptedWithItsPixelsAsPayload : Obligations.ImageIsAcceptedWithItsPixelsAsPayload := by
  intro b s ph hpix
  have hlen : (b.pix.flatMap le16).length = 2 * (b.a2.toNat * b.a3.toNat) := by rw [flatMap_le16_length, hpix]
  refine ⟨_, b.pix.flatMap le16, rfl, hlen, ?_, fun i c hc => flatMap_le16_getElem? hc,
    exec_of_enc_ok rfl ph ((enc_image b).trans (encImage_of_pix_length_eq hpix)), fun hempty M _ => ?_⟩
  · have hcount : b.a2.toNat * b.a3.toNat ≤ 65535 * 65535 := Nat.mul_le_mul (by omega) (by omega)
    omega
  · have hpay : b.pix.flatMap le16 = [] := by
      apply List.eq_nil_of_length_eq_zero
      rw [hlen]
      rcases hempty with h | h <;> simp [h]
    rw [hpay, frame_of_pay_length_le (Nat.zero_le _), List.append_nil]
    rfl

/-- Settles O12: the lengths are read off the three forms of an accepted record. -/
theorem acceptedRecordsHaveTheirTableLengths : Obligations.AcceptedRecordsHaveTheirTableLengths := by
  intro c op hdr pay g h
  have hle := hdr_length_le_of_enc_ok h
  have hbudget (p : Params) (legal : p.Legal) : hdr.length ≤ p.pktMax := hle.trans legal.1.1
  rcases enc_ok_cases h with ⟨hk, rfl, hhdr, hpay, -⟩ | ⟨hk, rfl, hhdr, hpay, -⟩ | ⟨hk, rfl, hhdr, hpay, -⟩
  · exact ⟨hk.symm, by simp [hhdr, headerLength], hle, hbudget, .inl ⟨hk, by simp [hhdr, hpay]⟩⟩
  · exact ⟨hk.symm, hhdr, hle, hbudget, .inr (.inl ⟨hk, by rw [hhdr, hpay]⟩)⟩
  · exact ⟨hk.symm, hhdr, hle, hbudget, .inr (.inr ⟨hk, by rw [hhdr, hpay]⟩)⟩

/-- Settles O4: the accept of what Enc answers for FILL, and two bytes fit every legal budget. -/
theorem fillIsAcceptedWithItsColorAsPayload : Obligations.FillIsAcceptedWithItsColorAsPayload := by
  refine ⟨fun b s ph => exec_of_enc_ok rfl ph (enc_fill b), fun M color hM => ?_⟩
  rw [frame_of_pay_length_le (by rw [le16_length, List.length_nil]; omega), List.length_singleton]

/-- Settles O5: the accept of what Enc answers for RECT, with the far edges and GEOV written out. -/
theorem rectIsAcceptedWithItsEdgesAsHeader : Obligations.RectIsAcceptedWithItsEdgesAsHeader := by
  intro b s ph
  rw [exec_of_enc_ok rfl ph (enc_rect b), farEdge_eq_ofNat_mod, farEdge_eq_ofNat_mod, rectWraps_eq_decide]
  rfl

/-- Settles O7: Enc refuses the record with PIX_LEN, and the refusal is latched. -/
theorem imageOfWrongPixelCountFaultsWithPixLen : Obligations.ImageOfWrongPixelCountFaultsWithPixLen :=
  fun b _ ph hpix => exec_of_enc_bad rfl ph ((enc_image b).trans (encImage_of_pix_length_ne hpix))

/-- Settles O8: Enc refuses the kind before it looks at the pixels, and the refusal is latched. -/
theorem reservedKindFaultsWithIllegalKind : Obligations.ReservedKindFaultsWithIllegalKind := by
  intro k b s ph hk
  have hreserved : k.reserved = true := by simpa [Opcode.reserved] using hk
  exact exec_of_enc_bad rfl ph (enc_of_reserved hreserved)

/-- Settles O11: FILL's encoding reads the color alone, RECT's no pixels and IMAGE's no color. -/
theorem unusedRecordFieldsDoNotChangeTheEncoding : Obligations.UnusedRecordFieldsDoNotChangeTheEncoding := by
  intro b b'
  refine ⟨fun hcolor => ?_, rfl, rfl⟩
  rw [enc_fill, enc_fill, encFill, encFill, hcolor]

end Sys2Proof.Machine
end

section
/-! The packets of a command by number: where each stands, how many there are, and how long they are (42_framer.md R157
to R164). -/

namespace Sys2Proof.Machine

open Sys2Proof

/-! ### Where a packet stands -/

/-- Payload is left for continuation `k + 1` where the first budget and `k` full packets do not hold it all
(42_framer.md R157). -/
theorem carried_succ_lt_pay_iff {M k : Nat} {hdr pay : Bytes} :
    carried M hdr pay (k + 1) < pay.length ↔ M - hdr.length + k * M < pay.length := by
  rw [carried, min_lt_iff, or_iff_right (lt_irrefl _)]

/-- Where payload is left, no packet before has been cut short (42_framer.md R157, R162). -/
theorem carried_succ_of_lt_pay {M k : Nat} {hdr pay : Bytes} (h : M - hdr.length + k * M < pay.length) :
    carried M hdr pay (k + 1) = M - hdr.length + k * M :=
  Nat.min_eq_right h.le

/-- The loop of 42_framer.md R158 from offset `off` on gives its packet number `j` at the offset that `j` full packets
reach, as long as payload is left there. -/
theorem contPackets_getElem? {M : Nat} {op : Opcode} {pay : Bytes} (hM : 1 ≤ M) (fuel off j : Nat)
    (hfuel : pay.length ≤ off + fuel) :
    (contPackets M op pay fuel off)[j]? =
      if off + j * M < pay.length then some (contPacket M op pay (off + j * M)) else none := by
  induction fuel generalizing off j with
  | zero => exact (if_neg (by omega)).symm
  | succ fuel ih =>
    by_cases hlt : off < pay.length
    · rw [contPackets, if_pos hlt]
      cases j with
      | zero => simp [hlt]
      | succ j =>
        have hpos := contCount_pos hM hlt
        rw [List.getElem?_cons_succ, ih _ _ (by omega), Nat.succ_mul]
        by_cases hfull : M ≤ pay.length - off
        · rw [contCount, Nat.min_eq_right hfull, Nat.add_right_comm, Nat.add_assoc off]
        · rw [if_neg (by unfold contCount; omega), if_neg (by omega)]
    · rw [contPackets_of_pay_length_le (not_lt.mp hlt), if_neg (by omega), List.getElem?_nil]

/-- Frame as a list by number: a packet after the first is there exactly where the packets before it leave payload
(42_framer.md R158). -/
theorem frame_getElem? {M : Nat} {op : Opcode} {hdr pay : Bytes} (hM : 1 ≤ M) (k : Nat) :
    (frame M op hdr pay)[k]? =
      if k = 0 ∨ carried M hdr pay k < pay.length then some (packetAt M op hdr pay k) else none := by
  cases k with
  | zero => rfl
  | succ k =>
    have hiff : firstCount M hdr pay + k * M < pay.length ↔ M - hdr.length + k * M < pay.length := by
      unfold firstCount
      omega
    rw [frame, List.getElem?_cons_succ, contPackets_getElem? hM _ _ _ (Nat.le_add_left _ _), packetAt]
    simp only [hiff, carried_succ_lt_pay_iff, Nat.succ_ne_zero, false_or]
    split
    · next hlt =>
      have hoff : firstCount M hdr pay + k * M = M - hdr.length + k * M := by
        unfold firstCount
        omega
      rw [hoff, carried_succ_of_lt_pay hlt]
    · rfl

theorem frame_getElem?_of_carried_lt {M k : Nat} {op : Opcode} {hdr pay : Bytes} (hM : 1 ≤ M)
    (h : k = 0 ∨ carried M hdr pay k < pay.length) :
    (frame M op hdr pay)[k]? = some (packetAt M op hdr pay k) := by
  rw [frame_getElem? hM, if_pos h]

theorem lt_frame_length_iff {M : Nat} (hM : 1 ≤ M) (op : Opcode) (hdr pay : Bytes) (k : Nat) :
    k < (frame M op hdr pay).length ↔ k = 0 ∨ carried M hdr pay k < pay.length := by
  rw [← not_le, ← List.getElem?_eq_none_iff, frame_getElem? hM]
  split <;> simp [*]

/-- Settles O23: Frame by number, with the offset of packet `k` written out. -/
theorem framePacketsStandAtTheirOffsets : Obligations.FramePacketsStandAtTheirOffsets := by
  intro M op hdr pay k hM _
  rw [frame_getElem? hM]
  cases k with
  | zero => simp
  | succ k => simp only [carried_succ_lt_pay_iff, Nat.add_sub_cancel]

/-! ### How many packets there are -/

theorem lt_ceilDiv_iff {a b k : Nat} (hb : 1 ≤ b) : k < ceilDiv a b ↔ k * b < a := by
  rw [ceilDiv, ← Nat.succ_le_iff, Nat.le_div_iff_mul_le hb, Nat.succ_mul]
  omega

theorem frame_length_eq_packetCount {M : Nat} {op : Opcode} {hdr pay : Bytes} (hM : 1 ≤ M) :
    (frame M op hdr pay).length = packetCount M hdr.length pay.length := by
  refine eq_of_forall_lt_iff fun k => ?_
  rw [lt_frame_length_iff hM, packetCount]
  cases k with
  | zero => simp
  | succ k =>
    rw [carried_succ_lt_pay_iff, Nat.add_comm k 1, Nat.add_lt_add_iff_left, lt_ceilDiv_iff hM]
    omega

/-- Settles O22: the count of R159 written out. -/
theorem frameHasTheStatedPacketCount : Obligations.FrameHasTheStatedPacketCount :=
  fun _ _ _ _ hM _ => frame_length_eq_packetCount hM

/-! ### How long the packets are -/

/-- A continuation packet carries PKT_MAX bytes of what the packets before it left, or all of it where that is less
(42_framer.md R153, R158). -/
theorem frame_succ_length {M k : Nat} {op : Opcode} {hdr pay p : Bytes} (hM : 1 ≤ M)
    (hp : (frame M op hdr pay)[k + 1]? = some p) :
    M - hdr.length + k * M < pay.length ∧ p.length = 1 + min (pay.length - (M - hdr.length + k * M)) M := by
  rw [frame_getElem? hM, Option.ite_none_right_eq_some, Option.some.injEq] at hp
  obtain ⟨hlt, rfl⟩ := hp
  have hlt := carried_succ_lt_pay_iff.mp (hlt.resolve_left k.succ_ne_zero)
  exact ⟨hlt, by rw [packetAt, contPacket_length, contCount, carried_succ_of_lt_pay hlt]⟩

/-- Where the remainder is `q + 1` full packets, the last packet of Frame is full (42_framer.md R162). -/
theorem frame_getLast?_of_full {M q : Nat} {op : Opcode} {hdr pay : Bytes} (hM : 1 ≤ M)
    (hfull : pay.length = M - hdr.length + (q + 1) * M) :
    ∃ p, (frame M op hdr pay).getLast? = some p ∧ p.length = 1 + M := by
  rw [Nat.succ_mul] at hfull
  have hlt : M - hdr.length + q * M < pay.length := by omega
  have hp := frame_getElem?_of_carried_lt (op := op) hM (.inr (carried_succ_lt_pay_iff.mpr hlt))
  have hlen : (frame M op hdr pay).length = q + 2 := by
    have hhas := lt_frame_length_iff hM op hdr pay (q + 1)
    have hends := lt_frame_length_iff hM op hdr pay (q + 2)
    rw [carried_succ_lt_pay_iff] at hhas hends
    rw [Nat.succ_mul] at hends
    omega
  refine ⟨_, by rw [List.getLast?_eq_getElem?, hlen]; exact hp, ?_⟩
  rw [(frame_succ_length hM hp).2]
  omega

/-- Settles O24: each clause reads the length of a packet after the first off what the packets before it left. -/
theorem noTrailingEmptyPacket : Obligations.NoTrailingEmptyPacket := by
  intro M op hdr pay hM _
  refine ⟨fun p hp => ?_, fun k p hk hnext hp => ?_, fun hbudget hmod => ?_, fun hle => ?_⟩
  · obtain ⟨k, hp⟩ := List.mem_iff_getElem?.mp hp
    rw [List.getElem?_tail] at hp
    obtain ⟨hlt, hlen⟩ := frame_succ_length hM hp
    omega
  · obtain ⟨j, rfl⟩ := Nat.exists_eq_add_of_le' hk
    obtain ⟨-, hlen⟩ := frame_succ_length hM hp
    have hleft := ((lt_frame_length_iff hM _ _ _ _).mp hnext).resolve_left (Nat.succ_ne_zero _)
    rw [carried_succ_lt_pay_iff, Nat.succ_mul] at hleft
    omega
  · obtain ⟨q, hq⟩ := Nat.dvd_of_mod_eq_zero hmod
    cases q with
    | zero => omega
    | succ q => exact frame_getLast?_of_full (q := q) hM (by rw [Nat.mul_comm, ← hq]; omega)
  · rw [frame_of_pay_length_le hle, List.length_singleton]

theorem frame_length_eq_one_iff {M : Nat} {op : Opcode} {hdr pay : Bytes} (hM : 1 ≤ M) :
    (frame M op hdr pay).length = 1 ↔ pay.length ≤ M - hdr.length := by
  have hfirst := lt_frame_length_iff hM op hdr pay 0
  have hsecond := lt_frame_length_iff hM op hdr pay 1
  rw [carried_succ_lt_pay_iff] at hsecond
  omega

/-- Settles O25: the payload length of each kind is compared with the first budget. -/
theorem shortCommandsAreOnePacket : Obligations.ShortCommandsAreOnePacket := by
  intro M c op hdr pay g hM _ henc
  rw [frame_length_eq_one_iff (by omega)]
  rcases enc_ok_cases henc with ⟨hk, -, rfl, hpay, -⟩ | ⟨hk, -, hhdr, hpay, -⟩ | ⟨hk, -, hhdr, hpay, -⟩
  · have hfill : 2 ≤ M := by omega
    simp [hk, hpay, hfill]
  · have hrect : 3 ≤ M - 8 ↔ 11 ≤ M := by omega
    simp [hk, hhdr, hpay, hrect]
  · simp [hk, hhdr, hpay]

end Sys2Proof.Machine
end

section
/-! Reassembly: the packets of a command carry its header and payload, and a stream of commands is rebuilt from its
packets (42_framer.md R161). -/

namespace Sys2Proof.Machine

open Sys2Proof

/-! ### The bytes that the packets carry -/

/-- The loop of 42_framer.md R158 carries the payload from its offset on. -/
theorem contPackets_flatMap_drop_one {M : Nat} {op : Opcode} {pay : Bytes} (hM : 1 ≤ M) (fuel off : Nat)
    (hfuel : pay.length ≤ off + fuel) : (contPackets M op pay fuel off).flatMap (List.drop 1) = pay.drop off := by
  induction fuel generalizing off with
  | zero => exact (List.drop_eq_nil_of_le hfuel).symm
  | succ fuel ih =>
    by_cases hlt : off < pay.length
    · have hpos := contCount_pos hM hlt
      rw [contPackets, if_pos hlt, List.flatMap_cons, ih _ (by omega), contPacket, List.drop_one, List.tail_cons,
        ← List.drop_drop, List.take_append_drop]
    · rw [contPackets_of_pay_length_le (not_lt.mp hlt), List.drop_eq_nil_of_le (not_lt.mp hlt), List.flatMap_nil]

theorem frame_flatMap_drop_one {M : Nat} {op : Opcode} {hdr pay : Bytes} (hM : 1 ≤ M) :
    (frame M op hdr pay).flatMap (List.drop 1) = hdr ++ pay := by
  rw [frame, List.flatMap_cons, contPackets_flatMap_drop_one hM _ _ (Nat.le_add_left _ _), firstPacket, List.drop_one,
    List.tail_cons, List.append_assoc, List.take_append_drop]

/-! ### The receiver's collection -/

/-- Every packet of the loop opens with the continuation control byte (42_framer.md R153). -/
theorem contPackets_open_with_contCtrl {M : Nat} {op : Opcode} {pay : Bytes} (fuel off : Nat) :
    ∀ p ∈ contPackets M op pay fuel off, ∃ body, p = contCtrl op :: body := by
  induction fuel generalizing off with
  | zero => exact fun p hp => absurd hp List.not_mem_nil
  | succ fuel ih =>
    intro p hp
    rw [contPackets] at hp
    split at hp
    · rcases List.mem_cons.mp hp with rfl | hp
      · exact ⟨_, rfl⟩
      · exact ih _ p hp
    · exact absurd hp List.not_mem_nil

theorem collectBodies_first {c : Byte} (hc : ctrlStart c = true) (opened : List (Opcode × Bytes)) (body : Bytes)
    (rest : List Bytes) :
    collectBodies opened ((c :: body) :: rest) = collectBodies ((ctrlOpc c, body) :: opened) rest :=
  if_pos hc

theorem collectBodies_cont {c : Byte} (hc : ctrlStart c = false) (op : Opcode) (sofar : Bytes)
    (others : List (Opcode × Bytes)) (body : Bytes) (rest : List Bytes) :
    collectBodies ((op, sofar) :: others) ((c :: body) :: rest) =
      collectBodies ((op, sofar ++ body) :: others) rest :=
  if_neg (ne_true_of_eq_false hc)

/-- Continuation packets add their bytes to the open command. -/
theorem collectBodies_conts {op : Opcode} {ps : List Bytes} (hps : ∀ p ∈ ps, ∃ body, p = contCtrl op :: body)
    (opened : Opcode) (sofar : Bytes) (others : List (Opcode × Bytes)) (rest : List Bytes) :
    collectBodies ((opened, sofar) :: others) (ps ++ rest) =
      collectBodies ((opened, sofar ++ ps.flatMap (List.drop 1)) :: others) rest := by
  induction ps generalizing sofar with
  | nil => simp
  | cons p ps ih =>
    obtain ⟨⟨body, hp⟩, htail⟩ := List.forall_mem_cons.mp hps
    rw [hp, List.cons_append, collectBodies_cont (ctrlStart_contCtrl op), ih htail, List.flatMap_cons, List.drop_one,
      List.tail_cons, List.append_assoc]

/-- The packets of a command open it with its opcode and give it its header and payload. -/
theorem collectBodies_frame {M : Nat} {op : Opcode} {hdr pay : Bytes} (hM : 1 ≤ M) (others : List (Opcode × Bytes))
    (rest : List Bytes) :
    collectBodies others (frame M op hdr pay ++ rest) = collectBodies ((op, hdr ++ pay) :: others) rest := by
  have hbytes := frame_flatMap_drop_one (op := op) (hdr := hdr) (pay := pay) hM
  rw [frame, List.flatMap_cons, firstPacket, List.drop_one, List.tail_cons] at hbytes
  rw [frame, firstPacket, List.cons_append, collectBodies_first (ctrlStart_firstCtrl op), ctrlOpc_firstCtrl,
    collectBodies_conts (contPackets_open_with_contCtrl _ _), hbytes]

theorem collectBodies_frames {M : Nat} (hM : 1 ≤ M) (rs : List Rebuilt) (others : List (Opcode × Bytes)) :
    collectBodies others (rs.flatMap fun r => frame M r.op r.hdr r.pay) =
      others.reverse ++ rs.map fun r => (r.op, r.hdr ++ r.pay) := by
  induction rs generalizing others with
  | nil => simp [collectBodies]
  | cons r rs ih => simp [collectBodies_frame hM, ih]

/-- A body splits into header and payload where the header has its opcode's length. -/
theorem splitBody_of_hdr_length {r : Rebuilt} (h : r.hdr.length = headerLength r.op) :
    splitBody (r.op, r.hdr ++ r.pay) = r := by
  simp only [splitBody, ← h, List.take_left', List.drop_left']

/-- Settles O26: the packets carry header and payload; the receiver collects each command's bytes between two first
packets, and splits them at the header length that every accepted record has. -/
theorem reassembleGivesBackTheCommands : Obligations.ReassembleGivesBackTheCommands := by
  refine ⟨fun M op hdr pay hM _ => frame_flatMap_drop_one hM, fun M rs hM _ haccepted => ?_⟩
  have hsplit : ∀ r ∈ rs, splitBody (r.op, r.hdr ++ r.pay) = r := fun r hr => by
    obtain ⟨c, g, henc⟩ := haccepted r hr
    obtain ⟨-, hlen, -⟩ := acceptedRecordsHaveTheirTableLengths c r.op r.hdr r.pay g henc
    exact splitBody_of_hdr_length hlen
  rw [reassemble, collectBodies_frames (by omega), List.reverse_nil, List.nil_append, List.map_map]
  exact (List.map_congr_left hsplit).trans (List.map_id _)

end Sys2Proof.Machine
end

section
/-! The framer's moves, each under its guard and with the guard false (42_framer.md R150 to R155, R163, R165). -/

namespace Sys2Proof.Machine

open Sys2Proof

/-! ### ACCEPT and the offer on CMD -/

theorem acceptOffer_of_no_offer {s : State} (hc : s.cmdOffer = none) : acceptOffer s = .next s := by
  simp [acceptOffer, hc, noStep]

/-- A CMD transaction in another phase than IDLE leaves its record waiting, whichever row it is of (42_framer.md
R151). -/
theorem exec_of_instrRecord_busy {i : Instr} {c : CmdRecord} {s : State} (hi : instrRecord i = some c)
    (ph : s.ph ≠ .idle) : exec i s = .next (standOffer c s) := by
  cases i with
  | fill | image | rect | illegalKind =>
    cases hi
    exact cmdTransaction_busy _ ph
  | _ => cases hi

theorem exec_accept_of_enc_ok {c : CmdRecord} {op : Opcode} {hdr pay : Bytes} {g : Bool} {s : State}
    (ph : s.ph = .idle) (hc : s.cmdOffer = some c) (h : enc c = .ok op hdr pay g) :
    exec .accept s = .next (latchOk c op hdr pay g (takeOffer s)) :=
  (acceptOffer_idle ph hc).trans (by rw [latchCommand_of_enc_ok h])

theorem exec_accept_of_enc_bad {c : CmdRecord} {code : ErrCode} {s : State} (ph : s.ph = .idle)
    (hc : s.cmdOffer = some c) (h : enc c = .bad code) :
    exec .accept s = .next (latchBad c code (takeOffer s)) :=
  (acceptOffer_idle ph hc).trans (by rw [latchCommand_of_enc_bad h])

/-- Settles O9: outside IDLE a transaction leaves its offer standing, and ACCEPT's guard is false. -/
theorem offerOutsideIdleWaits : Obligations.OfferOutsideIdleWaits := fun _ _ _ ph =>
  ⟨exec_of_instrRecord_busy rfl ph, exec_of_instrRecord_busy rfl ph, exec_of_instrRecord_busy rfl ph,
    exec_of_instrRecord_busy rfl ph, acceptOffer_busy ph⟩

/-- Settles O10: the offer is taken, and the encoder's result latched or its refusal recorded. -/
theorem acceptLatchesTheOfferedRecord : Obligations.AcceptLatchesTheOfferedRecord := fun _ _ ph hc =>
  ⟨fun _ _ _ _ h => exec_accept_of_enc_ok ph hc h, fun _ h => exec_accept_of_enc_bad ph hc h⟩

/-! ### The ISSUE steps -/

theorem exec_issueFirst_of_issue {s : State} (ph : s.ph = .issue) (fst : s.first = true) :
    exec .issueFirst s = .next (afterFirst s) :=
  issueFirstPacket_of_issue ph fst

theorem exec_issueCont_of_issue {s : State} (ph : s.ph = .issue) (fst : s.first = false) :
    exec .issueCont s = .next (afterCont s) :=
  issueContPacket_of_issue ph fst

theorem issueFirstPacket_of_guard_false {s : State} (h : s.ph ≠ .issue ∨ s.first = false) :
    issueFirstPacket s = .next s :=
  if_neg (by simpa [imp_iff_not_or] using h)

theorem issueContPacket_of_guard_false {s : State} (h : s.ph ≠ .issue ∨ s.first = true) :
    issueContPacket s = .next s :=
  if_neg (by simpa [imp_iff_not_or] using h)

theorem issueFirstOf_of_guard_false {s : State} {op : Opcode} (h : s.ph ≠ .issue ∨ s.first = false ∨ s.op ≠ op) :
    issueFirstOf op s = .next s := by
  unfold issueFirstOf
  split
  · next hop => exact issueFirstPacket_of_guard_false (h.imp_right fun h => h.resolve_right (not_not.mpr hop))
  · rfl

theorem issueContOf_of_guard_false {s : State} {op : Opcode} (h : s.ph ≠ .issue ∨ s.first = true ∨ s.op ≠ op) :
    issueContOf op s = .next s := by
  unfold issueContOf
  split
  · next hop => exact issueContPacket_of_guard_false (h.imp_right fun h => h.resolve_right (not_not.mpr hop))
  · rfl

/-- Settles O13: the state after the issue of the first packet, with the packet written out. -/
theorem issueFirstPresentsTheFirstPacket : Obligations.IssueFirstPresentsTheFirstPacket := by
  rintro s _ _ ph fst rfl rfl
  exact exec_issueFirst_of_issue ph fst

/-- Settles O14: the state after the issue of a continuation packet, and the bounds of what the packet carries. -/
theorem issueContPresentsTheNextPayloadBytes : Obligations.IssueContPresentsTheNextPayloadBytes := by
  rintro s n p ph fst hn rfl
  have hcount : contCount s.params.pktMax s.pay s.off.toNat = n := hn.symm
  have hpacket : contPacket s.params.pktMax s.op s.pay s.off.toNat =
      [s.op.setWidth 8] ++ (s.pay.drop s.off.toNat).take n := by rw [contPacket, hcount]; rfl
  refine ⟨?_, fun legal hlt => ?_⟩
  · rw [exec_issueCont_of_issue ph fst, afterCont, presentPacket_of_not_first _ _ fst, hpacket, hcount]
  · obtain ⟨⟨hM, -⟩, -⟩ := legal
    rw [← hpacket, contPacket_length, hcount]
    omega

/-! ### The write results -/

theorem exec_writeErr_of_wait {s : State} (ph : s.ph = .wait) : exec .writeErr s = .next (answerErr s) :=
  if_pos ph

theorem takeAnswer_of_not_wait {s : State} (effect : State → State) (ph : s.ph ≠ .wait) :
    takeAnswer effect s = .next s :=
  if_neg ph

theorem phaseAfterOk_of_complete {s : State} (h : s.off.toNat = s.pay.length) : phaseAfterOk s = .idle :=
  if_pos h

theorem phaseAfterOk_of_incomplete {s : State} (h : s.off.toNat ≠ s.pay.length) : phaseAfterOk s = .issue :=
  if_neg h

theorem phaseAfterOk_eq_idle_iff {s : State} : phaseAfterOk s = .idle ↔ s.off.toNat = s.pay.length := by
  unfold phaseAfterOk
  split <;> simp [*]

/-- Settles O15: the OK result's effect, with the phase that it leaves read off OFF. -/
theorem writeOkCountsThePacketAndGoesOn : Obligations.WriteOkCountsThePacketAndGoesOn := by
  intro s ph
  rw [exec_writeOk_of_wait ph, answerOk]
  exact ⟨fun h => by rw [phaseAfterOk_of_complete h], fun h => by rw [phaseAfterOk_of_incomplete h]⟩

/-- Settles O16: the ERR result's effect is the fault alone. -/
theorem writeErrEntersTheFaultState : Obligations.WriteErrEntersTheFaultState :=
  fun _ ph => exec_writeErr_of_wait ph

/-- Settles O19: event by event, the guard is false. -/
theorem movesWithFalseGuardsChangeNothing : Obligations.MovesWithFalseGuardsChangeNothing := fun _ =>
  ⟨fun h => h.elim acceptOffer_busy acceptOffer_of_no_offer, issueFirstPacket_of_guard_false,
    issueContPacket_of_guard_false, fun ph => ⟨takeAnswer_of_not_wait _ ph, takeAnswer_of_not_wait _ ph⟩,
    issueFirstOf_of_guard_false, issueFirstOf_of_guard_false, issueFirstOf_of_guard_false, issueContOf_of_guard_false,
    issueContOf_of_guard_false, issueContOf_of_guard_false⟩

/-! ### The CPE's own move -/

theorem step_of_nothing_scheduled {s : State} (legal : s.params.Legal) (hin : s.inbox = []) : step s = ownMove s := by
  simp only [step, if_pos legal, hin]

theorem ownMove_of_idle {s : State} (ph : s.ph = .idle) : ownMove s = exec .accept s := by
  rw [ownMove, ph]; rfl

theorem ownMove_of_issue_first {s : State} (ph : s.ph = .issue) (fst : s.first = true) :
    ownMove s = exec .issueFirst s := by
  rw [ownMove, ph, fst]; rfl

theorem ownMove_of_issue_cont {s : State} (ph : s.ph = .issue) (fst : s.first = false) :
    ownMove s = exec .issueCont s := by
  rw [ownMove, ph, fst]; rfl

theorem ownMove_of_wait_or_fault {s : State} (ph : s.ph = .wait ∨ s.ph = .fault) : ownMove s = .next s := by
  rcases ph with ph | ph <;> rw [ownMove, ph] <;> rfl

/-- Settles O45: the own move in IDLE is ACCEPT, and in FAULT there is none. -/
theorem idleCpeAcceptsAWaitingOffer : Obligations.IdleCpeAcceptsAWaitingOffer := by
  intro s legal hin
  rw [step_of_nothing_scheduled legal hin]
  exact ⟨ownMove_of_idle, fun ph => ownMove_of_wait_or_fault (.inr ph)⟩

/-- Settles O20: FIRST tells which of the two ISSUE steps is enabled, and it is the own move; in WAIT there is none. -/
theorem issuePhaseAlwaysHasOneIssueMove : Obligations.IssuePhaseAlwaysHasOneIssueMove := by
  intro s legal hin
  rw [step_of_nothing_scheduled legal hin]
  refine ⟨fun ph => ?_, fun ph => ownMove_of_wait_or_fault (.inl ph)⟩
  cases fst : s.first with
  | true =>
    have hfirst := exec_issueFirst_of_issue ph fst
    exact ⟨afterFirst s, rfl, (ownMove_of_issue_first ph fst).trans hfirst,
      .inl ⟨hfirst, issueContPacket_of_guard_false (.inr fst)⟩⟩
  | false =>
    have hcont := exec_issueCont_of_issue ph fst
    exact ⟨afterCont s, rfl, (ownMove_of_issue_cont ph fst).trans hcont,
      .inr ⟨issueFirstPacket_of_guard_false (.inr fst), hcont⟩⟩

end Sys2Proof.Machine
end

section
/-! A command in progress presents the packets of its Frame, and ends with the answer to the last one (42_framer.md
R156, R158, R160, R166). -/

namespace Sys2Proof.Machine

open Sys2Proof

/-! ### The packet presented -/

/-- A move presents no packet, or it is the presenting of one packet (20_memory.md R52). -/
theorem Move.pktOut_eq_or_presents {i : Instr} {s t : State} (m : Move i s t) :
    t.pktOut = s.pktOut ∨ ∃ p n, t = presentPacket p n s := by
  rcases m.pktOut_cases with hout | ⟨-, -, rfl⟩ | ⟨-, -, rfl⟩
  · exact .inl hout
  · exact .inr ⟨_, _, rfl⟩
  · exact .inr ⟨_, _, rfl⟩

theorem one_le_pktMax {p : Params} (legal : p.Legal) : 1 ≤ p.pktMax :=
  le_trans (by decide) legal.1.1

/-- The outstanding packet is packet number PKTIDX of Frame (42_framer.md R158). -/
theorem Inv.frame_getElem?_pktidx {s : State} (h : Inv s) (ph : s.ph = .wait) :
    (frame s.params.pktMax s.op s.hdr s.pay)[s.pktidx.toNat]? = some s.pend := by
  obtain ⟨-, -, hleft, hpend⟩ := h.outstanding ph
  rw [hpend, frame_getElem?_of_carried_lt (one_le_pktMax h.legal) hleft]

/-- Settles O28: an event that presents a packet leaves it outstanding in a state of the invariant. -/
theorem issuedPacketIsTheFramePacketOfItsNumber : Obligations.IssuedPacketIsTheFramePacketOfItsNumber := by
  intro i s t h hexec
  have m := move_of_exec hexec
  have ht := h.kept_by_move m
  rcases m.pktOut_eq_or_presents with hout | ⟨p, n, rfl⟩
  · exact .inl hout
  · exact .inr ⟨rfl, ht.frame_getElem?_pktidx rfl⟩

/-- Settles O29: an event that presents a packet leaves it outstanding in a state of the invariant, which bounds its
length; PKT_MAX is at most 63. -/
theorem everyPacketHasAtMostPktMaxPlusOneBytes : Obligations.EveryPacketHasAtMostPktMaxPlusOneBytes := by
  intro i s t h hexec q hq
  have m := move_of_exec hexec
  have ht := h.kept_by_move m
  rcases m.pktOut_eq_or_presents with hout | ⟨p, n, rfl⟩
  · exact .inl (hout ▸ hq)
  · obtain ⟨hpos, hle⟩ := ht.pend_length_bounds rfl
    obtain ⟨⟨-, hM⟩, -⟩ := h.legal
    rw [presentPacket_pktOut, List.mem_append, List.mem_singleton] at hq
    refine hq.imp_right fun hq => ?_
    rw [presentPacket_pend, ← hq] at hpos hle
    exact ⟨hpos, hle, hle.trans (Nat.succ_le_succ hM)⟩

/-! ### The answer to the last packet -/

/-- In PH = WAIT the payload has been carried whole exactly where the outstanding packet is the last of Frame
(42_framer.md R156, R158). -/
theorem Inv.complete_iff_last {s : State} (h : Inv s) (ph : s.ph = .wait) :
    s.off.toNat = s.pay.length ↔ s.pktidx.toNat + 1 = (frame s.params.pktMax s.op s.hdr s.pay).length := by
  obtain ⟨-, hoff, hleft, -⟩ := h.outstanding ph
  have hle := h.off_le_pay_of_wait ph
  have hthis := (lt_frame_length_iff (one_le_pktMax h.legal) s.op s.hdr s.pay _).mpr hleft
  have hnext := lt_frame_length_iff (one_le_pktMax h.legal) s.op s.hdr s.pay (s.pktidx.toNat + 1)
  rw [← hoff] at hnext
  omega

/-- Settles O32: the OK result ends the command where the payload has been carried whole, and counts the packet. -/
theorem commandEndsWithTheAnswerToItsLastPacket : Obligations.CommandEndsWithTheAnswerToItsLastPacket := by
  intro s t h ph hexec
  rw [exec_writeOk_of_wait ph] at hexec
  cases hexec
  rw [h.toNat_pktidx_answerOk ph, ← h.complete_iff_last ph, answerOk_ph, phaseAfterOk_eq_idle_iff]

/-- Settles O49: what the invariant says of IDLE and of FAULT. -/
theorem goodEndsLeaveNothingOutstanding : Obligations.GoodEndsLeaveNothingOutstanding := by
  intro s h
  refine ⟨fun (ph : s.ph = .idle) => ?_, fun (ph : s.ph = .fault) => ?_⟩
  · have hfault : s.ph ≠ .fault := by simp [ph]
    exact ⟨h.pend_empty (by simp [ph]), h.errc_eq_none hfault, (h.idle_values ph).1, hfault⟩
  · have hidle : s.ph ≠ .idle := by simp [ph]
    exact ⟨h.pend_empty (by simp [ph]), h.errc_iff_fault.mpr ph, hidle⟩

/-! ### The run of a command -/

theorem execAll_cons {i : Instr} {s t : State} (h : exec i s = .next t) (is : List Instr) :
    execAll (i :: is) s = execAll is t := by
  simp only [execAll, h]

/-- The state in which the command in progress has been sent: nothing outstanding, PH = IDLE, and `ps` presented since
`s` (42_framer.md R154). -/
def finished (ps : List Bytes) (off : BitVec 33) (idx : BitVec 32) (s : State) : State :=
  { s with ph := .idle, pend := [], off := off, pktidx := idx, pktOut := s.pktOut ++ ps }

/-- The OK result to the last packet finishes the command. -/
theorem answerOk_of_complete {s : State} (h : s.off.toNat = s.pay.length) :
    answerOk s = finished [] s.off (s.pktidx + 1) s := by
  rw [answerOk, phaseAfterOk_of_complete h, finished, List.append_nil]

/-- The continuation issued after an OK result is the first of the packets presented since. -/
theorem finished_afterCont_answerOk {s : State} (fst : s.first = false) (ps : List Bytes) (off : BitVec 33)
    (idx : BitVec 32) :
    finished ps off idx (afterCont (answerOk s)) = finished ((afterCont (answerOk s)).pend :: ps) off idx s := by
  simp [finished, afterCont, presentPacket, answerOk, fst]

/-- From an outstanding packet with `n` packets of the command's Frame `ps` after it, answering each with OK presents
those `n` packets and finishes the command (42_framer.md R156, R158). -/
theorem Inv.execAll_contEvents {s : State} (h : Inv s) (ph : s.ph = .wait) {ps : List Bytes}
    (hps : frame s.params.pktMax s.op s.hdr s.pay = ps) (n : Nat) (hn : s.pktidx.toNat + 1 + n = ps.length) :
    ∃ off idx,
      execAll (.writeOk :: contEvents n) s = .next (finished (ps.drop (s.pktidx.toNat + 1)) off idx s) ∧
      off.toNat = s.pay.length ∧ idx.toNat = ps.length := by
  have hlast := hps ▸ h.complete_iff_last ph
  rw [execAll_cons (exec_writeOk_of_wait ph)]
  induction n generalizing s with
  | zero =>
    have hend := hlast.mpr hn
    refine ⟨s.off, s.pktidx + 1, ?_, hend, (h.toNat_pktidx_answerOk ph).trans hn⟩
    rw [contEvents, execAll, answerOk_of_complete hend, List.drop_eq_nil_of_le hn.ge]
  | succ n ih =>
    obtain ⟨fst, -⟩ := h.outstanding ph
    have phOk : (answerOk s).ph = .issue := phaseAfterOk_of_incomplete (by omega)
    have hnext : Inv (afterCont (answerOk s)) := (h.kept_by_answerOk ph).kept_by_afterCont phOk fst
    have hidx : (afterCont (answerOk s)).pktidx.toNat = s.pktidx.toNat + 1 := h.toNat_pktidx_answerOk ph
    have hpend : ps[s.pktidx.toNat + 1]? = some (afterCont (answerOk s)).pend := by
      rw [← hps, ← hidx]
      exact hnext.frame_getElem?_pktidx rfl
    obtain ⟨hlt, hpend⟩ := List.getElem?_eq_some_iff.mp hpend
    obtain ⟨off, idx, hrun, hoff, hlen⟩ := ih hnext rfl hps (by omega) (hps ▸ hnext.complete_iff_last rfl)
    refine ⟨off, idx, ?_, hoff, hlen⟩
    rw [contEvents, execAll_cons (exec_issueCont_of_issue phOk fst), execAll_cons (exec_writeOk_of_wait rfl), hrun,
      hidx, finished_afterCont_answerOk fst, List.drop_eq_getElem_cons hlt, hpend]

/-- The first packet of an accepted record meets the invariant once presented, whatever the state before the accept: the
accept and the issue write every element that the invariant speaks of (42_framer.md R150, R152). -/
theorem inv_afterFirst_latchOk {c : CmdRecord} {op : Opcode} {hdr pay : Bytes} {g : Bool} {s : State}
    (legal : s.params.Legal) (henc : enc c = .ok op hdr pay g) : Inv (afterFirst (latchOk c op hdr pay g s)) where
  legal := legal
  idle_values h := nomatch h
  pend_empty h := absurd rfl h
  errc_iff_fault := by simp [afterFirst]
  latched _ := henc
  before_first h := nomatch h
  before_cont h := nomatch h
  outstanding _ := by
    have hlt : firstCount s.params.pktMax hdr pay < 2 ^ 33 :=
      (firstCount_le_pay _ _ _).trans_lt (pay_length_lt_of_enc_ok henc)
    exact ⟨rfl, (Nat.mod_eq_of_lt hlt).trans (carried_one _ _ _).symm, .inl rfl, rfl⟩

/-- Settles O31: the accept and the issue of packet 0, then the answers to the packets of Frame one after the other. -/
theorem acceptedCommandSendsExactlyItsFrame : Obligations.AcceptedCommandSendsExactlyItsFrame := by
  intro s c op hdr pay g legal ph hc henc
  have h := inv_afterFirst_latchOk (s := takeOffer s) legal henc
  have hn : 0 + 1 + (packetCount s.params.pktMax hdr.length pay.length - 1) =
      (frame s.params.pktMax op hdr pay).length := by
    rw [frame_length_eq_packetCount (one_le_pktMax legal), packetCount]
    omega
  obtain ⟨off, idx, hrun, hoff, hidx⟩ := h.execAll_contEvents rfl rfl _ hn
  rw [execAll_cons (exec_accept_of_enc_ok ph hc henc), sendEvents, execAll_cons (exec_issueFirst_of_issue rfl rfl),
    hrun]
  refine ⟨_, rfl, rfl, ?_, hidx, hoff, rfl, rfl, rfl, rfl, rfl, rfl⟩
  exact List.append_assoc _ _ _

end Sys2Proof.Machine
end

section
/-! The fault state: what leaves it, and what enters it (60_exceptions.md R200, R201, R206). -/

namespace Sys2Proof.Machine

open Sys2Proof

/-- Settles O33: in FAULT only a waiting offer, a returned color and RESET are moves that change anything. -/
theorem onlyResetLeavesTheFaultState : Obligations.OnlyResetLeavesTheFaultState := by
  intro i s t hs hi hexec
  cases move_of_exec hexec with
  | stay | stand | color => rfl
  | latch c event => simp [event.1] at hs
  | first ph => simp [ph] at hs
  | cont ph => simp [ph] at hs
  | ok _ ph => simp [ph] at hs
  | err _ ph => simp [ph] at hs
  | reset event => exact absurd event hi

/-- An OK result raises no fault (42_framer.md R154). -/
theorem phaseAfterOk_ne_fault (s : State) : phaseAfterOk s ≠ .fault := by
  unfold phaseAfterOk
  split <;> simp

/-- A fault is entered by an ERR result in WAIT, or by the accept of a record that the encoder refuses
(60_exceptions.md R200). -/
theorem Move.enters_fault {i : Instr} {s t : State} (m : Move i s t) (hs : s.ph ≠ .fault) (ht : t.ph = .fault) :
    (i = .writeErr ∧ s.ph = .wait ∧ t = answerErr s) ∨
      ∃ c code, Accepts i c s ∧ enc c = .bad code ∧ t = latchBad c code (takeOffer s) := by
  cases m with
  | err event ph => exact .inl ⟨event, ph, rfl⟩
  | latch c event =>
    rcases latchCommand_cases c (takeOffer s) with ⟨_, _, _, _, -, e⟩ | ⟨code, henc, e⟩
    · simp [e] at ht
    · exact .inr ⟨c, code, event, henc, e⟩
  | ok => exact absurd ht (phaseAfterOk_ne_fault s)
  | stay | stand | color => exact absurd ht hs
  | first | cont | reset => cases ht

/-- Settles O34: each of the two ways into the fault state names its event and writes what is recorded. -/
theorem faultsBeginOnlyWhereTheirCausesStand : Obligations.FaultsBeginOnlyWhereTheirCausesStand := by
  intro i s t hexec hs ht
  rcases (move_of_exec hexec).enters_fault hs ht with ⟨event, ph, rfl⟩ | ⟨c, code, ⟨ph, event⟩, henc, rfl⟩
  · exact .inl ⟨event, ph, rfl, rfl, rfl, rfl⟩
  · exact .inr ⟨ph, c, event, rfl, henc, enc_bad_cases henc, rfl, rfl⟩

end Sys2Proof.Machine
end

section
/-! RESET, and at most one packet outstanding (20_memory.md R52, R57, 70_reset_and_hazards.md R230, R231, R234). -/

namespace Sys2Proof.Machine

open Sys2Proof

/-! ### RESET -/

/-- RESET has no guard (70_reset_and_hazards.md R230). -/
theorem exec_reset (s : State) : exec .reset s = .next (resetElements s) := rfl

/-- CFG holds PKT_MAX, an instance parameter, which RESET does not write (10_state.md R33). -/
theorem readCfg_resetElements (s : State) : readCfg (resetElements s) = readCfg s := rfl

theorem resetElements_ph_ne_wait (s : State) : (resetElements s).ph ≠ .wait := by simp

/-- Settles O2: RESET has no guard, and its effect gives each listed field. -/
theorem resetPutsEveryElementAtItsResetValue : Obligations.ResetPutsEveryElementAtItsResetValue := by
  intro s
  refine ⟨resetElements s, exec_reset s, ?_⟩
  simp [readCfg_resetElements]

/-- Settles O3: RESET leaves WAIT, and a write result is taken in WAIT alone. -/
theorem resetAbandonsTheOutstandingPacket : Obligations.ResetAbandonsTheOutstandingPacket := fun s _ =>
  ⟨resetElements s, exec_reset s, resetElements_ph s, resetElements_pend s, resetElements_pktOut s,
    takeAnswer_of_not_wait answerOk (resetElements_ph_ne_wait s),
    takeAnswer_of_not_wait answerErr (resetElements_ph_ne_wait s)⟩

/-! ### One packet outstanding -/

/-- A first packet holds its control byte at least (30_encoding.md R82). -/
theorem firstPacket_ne_nil (M : Nat) (op : Opcode) (hdr pay : Bytes) : firstPacket M op hdr pay ≠ [] :=
  List.cons_ne_nil _ _

/-- A continuation packet holds its control byte at least (30_encoding.md R83). -/
theorem contPacket_ne_nil (M : Nat) (op : Opcode) (pay : Bytes) (off : Nat) : contPacket M op pay off ≠ [] :=
  List.cons_ne_nil _ _

/-- An accept emits nothing, whether the encoder takes the record or refuses it (42_framer.md R150). -/
theorem latchCommand_pktOut (c : CmdRecord) (s : State) : (latchCommand c s).pktOut = s.pktOut := by
  rcases latchCommand_cases c s with ⟨_, _, _, _, -, e⟩ | ⟨_, -, e⟩ <;> rw [e]
  · exact latchOk_pktOut ..
  · exact latchBad_pktOut ..

/-- An accept ends in ISSUE or in FAULT (42_framer.md R150). -/
theorem latchCommand_ph_ne_wait (c : CmdRecord) (s : State) : (latchCommand c s).ph ≠ .wait := by
  rcases latchCommand_cases c s with ⟨_, _, _, _, -, e⟩ | ⟨_, -, e⟩ <;> simp [e]

/-- An OK result always ends the wait (42_framer.md R154). -/
theorem phaseAfterOk_ne_wait (s : State) : phaseAfterOk s ≠ .wait := by
  unfold phaseAfterOk
  split <;> simp

/-- A move emits nothing, and then WAIT after it is the same wait as before; or it is an ISSUE step, whose one packet
is the outstanding one (20_memory.md R52, 70_reset_and_hazards.md R234). -/
theorem Move.emits_nothing_or_the_outstanding_packet {i : Instr} {s t : State} (m : Move i s t) :
    (t.pktOut = s.pktOut ∧ (t.ph = .wait → s.ph = .wait ∧ t.pend = s.pend)) ∨
      (s.ph = .issue ∧ t.ph = .wait ∧ t.pend ≠ [] ∧ t.pktOut = s.pktOut ++ [t.pend]) := by
  cases m with
  | first ph => exact .inr ⟨ph, rfl, firstPacket_ne_nil _ _ _ _, rfl⟩
  | cont ph => exact .inr ⟨ph, rfl, contPacket_ne_nil _ _ _ _, rfl⟩
  | stay | stand | color => exact .inl ⟨rfl, fun ht => ⟨ht, rfl⟩⟩
  | latch c => exact .inl ⟨latchCommand_pktOut c _, fun ht => absurd ht (latchCommand_ph_ne_wait c _)⟩
  | ok => exact .inl ⟨rfl, fun ht => absurd ht (phaseAfterOk_ne_wait s)⟩
  | err | reset => exact .inl ⟨rfl, nofun⟩

/-- Only an OK result leads from WAIT to ISSUE (20_memory.md R57). -/
theorem Move.wait_to_issue {i : Instr} {s t : State} (m : Move i s t) (hs : s.ph = .wait) (ht : t.ph = .issue) :
    i = .writeOk := by
  cases m with
  | ok event => exact event
  | stay | stand | color => exact absurd (hs.symm.trans ht) (by decide)
  | latch c event => exact absurd (hs.symm.trans event.1) (by decide)
  | first | cont | err | reset => cases ht

/-- Settles O27: an event is one of its moves, and each half is a fact about moves. -/
theorem packetsArePresentedOneAtATimeFromIssue : Obligations.PacketsArePresentedOneAtATimeFromIssue := by
  intro i s t hexec
  have m := move_of_exec hexec
  exact ⟨m.emits_nothing_or_the_outstanding_packet, m.wait_to_issue⟩

end Sys2Proof.Machine
end
